-- ==== Sys2Proof/Word.lean ====
section
/-! DEFINITION. Word: the words of the block and the names of its parts (R6, R108). -/

namespace Sys2Proof

/-- Eight bits. -/
abbrev Byte := BitVec 8

/-- A coachman word or a vector element (R40, R108). -/
abbrev Word := BitVec 32

/-- One of the four channels, 0 = A to 3 = D (Table 2.7). -/
abbrev ChId := BitVec 2

/-- A logical core: [8:7] channel, [6:4] cluster, [3:0] core, as in CORE_ID (Table 2.7). -/
abbrev CoreId := BitVec 9

/-- One of the 64 job slots of the module (R238). -/
abbrev JobSlot := BitVec 6

end Sys2Proof
end

