-- ==== Sys2Proof/Config.lean ====
section
/-! DEFINITION. Config: what one part fixes, and the values the spec leaves open. Each is an opaque constant: nothing in Lean
can evaluate it, so every claim holds whatever it is (DESIGN CHOICE: assumption log, 2). -/

namespace Sys2Proof

/-- The stepping of the part: true for B1, false for A2 (Tables 0.1, 16.5). -/
opaque Config.isB1 : Bool

/-- Whether the part is a listed part (R2, Table 16.5). -/
opaque Config.isListed : Bool

/-- The device serial, 16 bytes (Table 16.5). -/
opaque Config.serial : BitVec 128

/-- The device public key (Table 16.5). -/
opaque Config.deviceKey : BitVec 512

/-- SM3 of the boot ROM (Table 16.5). -/
opaque Config.romHash : BitVec 256

/-- The device's certificate chain (Table 17.11). -/
opaque Config.certChain : List Byte

/-- SM3 of the Yardom root certificate (Table 17.11). -/
opaque Config.rootHash : BitVec 256

/-- The key that signs management programs (Table 17.11). -/
opaque Config.fwKey : BitVec 512

/-- The Yardom test key (R275, Table 17.11). -/
opaque Config.testKey : BitVec 512

/-- The n-th value drawn from the entropy source (Table 17.11, SEC_BOOT_NONCE; R297). -/
opaque Config.entropy : Nat → BitVec 256

/-- The n-th SM2 signature the device key makes over a message; SM2 signs with a fresh random number (R376, R383). -/
opaque Config.deviceSig : Nat → List Byte → BitVec 512

/-- Whether a certificate chain chains to the Yardom root the cartridge check names (R297); the chain's format is not in the spec. -/
opaque Config.chainOk : List Byte → Bool

/-- The public key a certificate chain's leaf names (R297); the chain's format is not in the spec. -/
opaque Config.chainKey : List Byte → BitVec 512

/-- Where in a core's receive store each byte of it comes from: the n-th of the bytes in use, for the depths of the queues bound
(R153, R366); the spec gives the store no layout. -/
opaque Config.storePlace : List Nat → Nat → Nat

/-- Yardom's MIPI manufacturer code (R370); the spec names it without a value. -/
opaque Config.mipiId : BitVec 15

/-- The device characteristics register (R369); the spec gives no value. -/
opaque Config.i3cDcr : BitVec 8

/-- What Get MCTP Version Support lists for a message type (R369); the spec gives no version numbers. -/
opaque Config.mctpVersions : BitVec 8 → List (BitVec 32)

/-- The command set type that Get Vendor Defined Message Support names beside the enterprise number (R369); the spec gives none. -/
opaque Config.vendorSet : BitVec 16

/-- What stands at element i of a NaN block, for the mantissa width and the values encoded (R59, R65); the spec states no mantissa there
(DESIGN CHOICE: assumption log, 35). -/
opaque Config.nanMant : Nat → List (List Int) → Nat → Nat

/-- The byte a vbunpk in split form writes where its mantissa and its scale byte have one position (R120; DESIGN CHOICE: assumption log, 33). -/
opaque Config.samePlace : Nat → Nat → Byte

/-- Whether the die network takes no beat from a core's egress queue in a cycle: channel, core, channel cycle (R147: the drain depends on
other traffic; DESIGN CHOICE: assumption log, 46). -/
opaque Config.egressStalls : Nat → Nat → Nat → Bool

/-- By how many cycles a transfer of a channel's own memory is late of its nominal figure: channel, tier, the tick of its issue (R195,
R198, R201, R234: retries, traffic above the sustained rates, a slow or degraded CXL device; DESIGN CHOICE: assumption log, 99). -/
opaque Config.late : Nat → Nat → Nat → Nat

/-- How many bursts of a write to a channel's GDDR7 the controller corrected by a retry: channel, tick (R195; DESIGN CHOICE: assumption
log, 99). -/
opaque Config.writeRetries : Nat → Nat → Nat

/-- What the read of a data frame meets in a channel's memory: channel, tick; 0 nothing, 1 a corrected burst, else an uncorrectable one
(R195; DESIGN CHOICE: assumption log, 99). -/
opaque Config.frameMeets : Nat → Nat → Nat

/-- Byte i of the n-th value that the spec leaves open (DESIGN CHOICE: assumption log, 2). -/
opaque Config.freeByte : Nat → Nat → Byte

end Sys2Proof
end

