-- ==== Sys2Proof/Syntax.lean ====
section
/-! DEFINITION. Syntax: the commands the block takes, whole: every row of spec/opcode_table.json.
Slot instructions carry the fields of their encoding (Tables 2.2, 2.3, 2.8, 2.9, 2.11; the M and V slots carry
the bits below the operation, Tables 4.3, 5.1, 5.3, 8.1), reserved fields among them.
Events carry what their surroundings decide: bytes received, readings taken, hardware errors met. -/

namespace Sys2Proof

/-- The port a dictionary request came through (R348, R372). -/
inductive Port where
  | ahnec | mgmt
deriving DecidableEq, Repr

/-- Who asks: the port, and the request's CSEQ (Ahnec, R348) or message TAG (management port, Table 17.2). -/
structure Req where
  port : Port
  cseq : Word
deriving DecidableEq, Repr

/-- An error of the hardware in reading an accumulator (R104): the lane, and how far its residue modulo 7 is off; 0 for none. -/
structure Resid where
  lane : BitVec 7
  off  : BitVec 3
deriving DecidableEq, Repr

/-- What the SEC-DED code of the array finds in the words a read touches (R140). -/
inductive Ecc where
  | clean | single | double
deriving DecidableEq, Repr

/-- The body of a link control packet with its source (Tables 14.5, 14.7). -/
structure Lctl where
  srcDev : BitVec 12
  srcCh  : ChId
  tag    : Word
  step   : BitVec 64
  gen    : BitVec 16
  id     : BitVec 16
  time   : BitVec 64
deriving DecidableEq, Repr

/-- A packet as it reaches a channel (Table 14.5); its kind is the command's. -/
structure Pkt where
  ddev : BitVec 12
  dch  : ChId
  sdev : BitVec 12
  sch  : ChId
  slot : BitVec 16
  arg  : BitVec 64
  body : List Byte
deriving DecidableEq, Repr

/-- One set of 1 ms readings (Table 16.6): supply in mV, mA and mW, temperatures in millidegrees Celsius.
`die` and `gddr` hold one entry for each channel, `power` the power of each channel. -/
structure Readings where
  vinMain : Nat
  iinMain : Nat
  pMain   : Nat
  vinAux  : Nat
  pAux    : Nat
  power   : List Nat
  die     : List Int
  gddr    : List Int
  hub     : Int
  coolIn  : Int
  coolOut : Int
deriving DecidableEq, Repr

/-- The commands: one constructor for each row of spec/opcode_table.json, in the table's order of families. -/
inductive Instr where
  /-- LOOP (R31). P-slot loop instruction latches a count from the level's count register or a g register and starts the hardware loop, or skips the body when the count is zero. -/
  | loop (c : CoreId) (lvl : BitVec 2) (src : Bool) (gi : BitVec 4) (rsv : BitVec 9) (len : BitVec 12)
  /-- SETC (R32). P-slot setc writes a loop level's count register, which takes effect at that level's next loop instruction. -/
  | setc (c : CoreId) (lvl : BitVec 2) (rsv : BitVec 2) (cnt : BitVec 24)
  /-- SKIP (R35). P-slot skip tests a g register and opens a window in which the masked slots of the following row words do not issue. -/
  | skip (c : CoreId) (gi : BitVec 4) (sense : Bool) (mask : BitVec 6) (rsv : BitVec 11) (win : BitVec 6)
  /-- STEP (R36). P-slot step row ends the current step, tests the X issue queue, takes the step snapshot and holds the task until the next launch. -/
  | step (c : CoreId) (rsv : BitVec 28)
  /-- DONE (R38). P-slot done stops the task's fetch once its row word has issued. -/
  | done (c : CoreId) (rsv : BitVec 28)
  /-- HLT (R39). P-slot hlt halts the core with a program assertion reason when its g-register condition holds. -/
  | hlt (c : CoreId) (gi : BitVec 4) (sense : Bool) (rsv : BitVec 15) (reason : BitVec 8)
  /-- ADD (R41). Coachman add writes rs1 + rs2 modulo 2^32 to rd. -/
  | add (c : CoreId) (rd : BitVec 4) (rs1 : BitVec 4) (rs2 : BitVec 4) (rsv : BitVec 14)
  /-- SUB (R41). Coachman sub writes rs1 − rs2 modulo 2^32 to rd. -/
  | sub (c : CoreId) (rd : BitVec 4) (rs1 : BitVec 4) (rs2 : BitVec 4) (rsv : BitVec 14)
  /-- MUL (R41). Coachman mul writes the low 32 bits of the product to rd. -/
  | mul (c : CoreId) (rd : BitVec 4) (rs1 : BitVec 4) (rs2 : BitVec 4) (rsv : BitVec 14)
  /-- MULH (R41). Coachman mulh writes the high 32 bits of the signed 64-bit product to rd. -/
  | mulh (c : CoreId) (rd : BitVec 4) (rs1 : BitVec 4) (rs2 : BitVec 4) (rsv : BitVec 14)
  /-- MULHU (R41). Coachman mulhu writes the high 32 bits of the unsigned 64-bit product to rd. -/
  | mulhu (c : CoreId) (rd : BitVec 4) (rs1 : BitVec 4) (rs2 : BitVec 4) (rsv : BitVec 14)
  /-- MIN (R41). Coachman min writes the signed minimum of rs1 and rs2 to rd. -/
  | min (c : CoreId) (rd : BitVec 4) (rs1 : BitVec 4) (rs2 : BitVec 4) (rsv : BitVec 14)
  /-- MAX (R41). Coachman max writes the signed maximum of rs1 and rs2 to rd. -/
  | max (c : CoreId) (rd : BitVec 4) (rs1 : BitVec 4) (rs2 : BitVec 4) (rsv : BitVec 14)
  /-- AND (R41). Coachman and writes the bitwise and of rs1 and rs2 to rd. -/
  | and (c : CoreId) (rd : BitVec 4) (rs1 : BitVec 4) (rs2 : BitVec 4) (rsv : BitVec 14)
  /-- OR (R41). Coachman or writes the bitwise or of rs1 and rs2 to rd. -/
  | or (c : CoreId) (rd : BitVec 4) (rs1 : BitVec 4) (rs2 : BitVec 4) (rsv : BitVec 14)
  /-- XOR (R41). Coachman xor writes the bitwise exclusive or of rs1 and rs2 to rd. -/
  | xor (c : CoreId) (rd : BitVec 4) (rs1 : BitVec 4) (rs2 : BitVec 4) (rsv : BitVec 14)
  /-- SLL (R41). Coachman sll shifts rs1 left by rs2[4:0]. -/
  | sll (c : CoreId) (rd : BitVec 4) (rs1 : BitVec 4) (rs2 : BitVec 4) (rsv : BitVec 14)
  /-- SRL (R41). Coachman srl shifts rs1 right by rs2[4:0] with zero fill. -/
  | srl (c : CoreId) (rd : BitVec 4) (rs1 : BitVec 4) (rs2 : BitVec 4) (rsv : BitVec 14)
  /-- SRA (R41). Coachman sra shifts rs1 right by rs2[4:0] with sign fill. -/
  | sra (c : CoreId) (rd : BitVec 4) (rs1 : BitVec 4) (rs2 : BitVec 4) (rsv : BitVec 14)
  /-- SEQ (R41). Coachman seq writes 1 when rs1 equals rs2, else 0. -/
  | seq (c : CoreId) (rd : BitVec 4) (rs1 : BitVec 4) (rs2 : BitVec 4) (rsv : BitVec 14)
  /-- SNE (R41). Coachman sne writes 1 when rs1 differs from rs2, else 0. -/
  | sne (c : CoreId) (rd : BitVec 4) (rs1 : BitVec 4) (rs2 : BitVec 4) (rsv : BitVec 14)
  /-- SLT (R41). Coachman slt writes 1 when rs1 is less than rs2, signed. -/
  | slt (c : CoreId) (rd : BitVec 4) (rs1 : BitVec 4) (rs2 : BitVec 4) (rsv : BitVec 14)
  /-- SLTU (R41). Coachman sltu writes 1 when rs1 is less than rs2, unsigned. -/
  | sltu (c : CoreId) (rd : BitVec 4) (rs1 : BitVec 4) (rs2 : BitVec 4) (rsv : BitVec 14)
  /-- SEL (R41). Coachman sel writes rs1 when the old rd is nonzero, else rs2. -/
  | sel (c : CoreId) (rd : BitVec 4) (rs1 : BitVec 4) (rs2 : BitVec 4) (rsv : BitVec 14)
  /-- CLZ (R41). Coachman clz writes the count of leading zeros of rs1. -/
  | clz (c : CoreId) (rd : BitVec 4) (rs1 : BitVec 4) (rs2 : BitVec 4) (rsv : BitVec 14)
  /-- POPC (R41). Coachman popc writes the count of one bits of rs1. -/
  | popc (c : CoreId) (rd : BitVec 4) (rs1 : BitVec 4) (rs2 : BitVec 4) (rsv : BitVec 14)
  /-- ADDI (R41). Coachman addi adds a sign-extended 18-bit immediate to rs1. -/
  | addi (c : CoreId) (rd : BitVec 4) (rs1 : BitVec 4) (imm : BitVec 18)
  /-- ANDI (R41). Coachman andi ands rs1 with a zero-extended immediate. -/
  | andi (c : CoreId) (rd : BitVec 4) (rs1 : BitVec 4) (imm : BitVec 18)
  /-- ORI (R41). Coachman ori ors rs1 with a zero-extended immediate. -/
  | ori (c : CoreId) (rd : BitVec 4) (rs1 : BitVec 4) (imm : BitVec 18)
  /-- XORI (R41). Coachman xori exclusive-ors rs1 with a zero-extended immediate. -/
  | xori (c : CoreId) (rd : BitVec 4) (rs1 : BitVec 4) (imm : BitVec 18)
  /-- SLLI (R41). Coachman slli shifts rs1 left by an immediate amount. -/
  | slli (c : CoreId) (rd : BitVec 4) (rs1 : BitVec 4) (imm : BitVec 18)
  /-- SRLI (R41). Coachman srli shifts rs1 right by an immediate amount with zero fill. -/
  | srli (c : CoreId) (rd : BitVec 4) (rs1 : BitVec 4) (imm : BitVec 18)
  /-- SRAI (R41). Coachman srai shifts rs1 right by an immediate amount with sign fill. -/
  | srai (c : CoreId) (rd : BitVec 4) (rs1 : BitVec 4) (imm : BitVec 18)
  /-- SEQI (R41). Coachman seqi compares rs1 with a sign-extended immediate for equality. -/
  | seqi (c : CoreId) (rd : BitVec 4) (rs1 : BitVec 4) (imm : BitVec 18)
  /-- SLTI (R41). Coachman slti compares rs1 with a sign-extended immediate, signed. -/
  | slti (c : CoreId) (rd : BitVec 4) (rs1 : BitVec 4) (imm : BitVec 18)
  /-- SLTIU (R41). Coachman sltiu compares rs1 with a sign-extended immediate, unsigned. -/
  | sltiu (c : CoreId) (rd : BitVec 4) (rs1 : BitVec 4) (imm : BitVec 18)
  /-- LI (R41). Coachman li loads a sign-extended 22-bit immediate. -/
  | li (c : CoreId) (rd : BitVec 4) (imm : BitVec 22)
  /-- LUI (R41). Coachman lui loads a 22-bit immediate shifted left by 10. -/
  | lui (c : CoreId) (rd : BitVec 4) (imm : BitVec 22)
  /-- LW (R41). Coachman lw loads a word from data memory with range and alignment checks. -/
  | lw (c : CoreId) (rd : BitVec 4) (base : BitVec 4) (off : BitVec 18)
  /-- LH (R41). Coachman lh loads a sign-extended halfword from data memory. -/
  | lh (c : CoreId) (rd : BitVec 4) (base : BitVec 4) (off : BitVec 18)
  /-- LHU (R41). Coachman lhu loads a zero-extended halfword from data memory. -/
  | lhu (c : CoreId) (rd : BitVec 4) (base : BitVec 4) (off : BitVec 18)
  /-- LB (R41). Coachman lb loads a sign-extended byte from data memory. -/
  | lb (c : CoreId) (rd : BitVec 4) (base : BitVec 4) (off : BitVec 18)
  /-- LBU (R41). Coachman lbu loads a zero-extended byte from data memory. -/
  | lbu (c : CoreId) (rd : BitVec 4) (base : BitVec 4) (off : BitVec 18)
  /-- SW (R41). Coachman sw stores a word to data memory, refused in held data memory. -/
  | sw (c : CoreId) (rd : BitVec 4) (base : BitVec 4) (off : BitVec 18)
  /-- SH (R41). Coachman sh stores a halfword to data memory. -/
  | sh (c : CoreId) (rd : BitVec 4) (base : BitVec 4) (off : BitVec 18)
  /-- SB (R41). Coachman sb stores a byte to data memory. -/
  | sb (c : CoreId) (rd : BitVec 4) (base : BitVec 4) (off : BitVec 18)
  /-- MTE (R44). Coachman mte writes an engine control register, effective from the next cycle. -/
  | mte (c : CoreId) (gi : BitVec 4) (addr : BitVec 10) (rsv : BitVec 12)
  /-- MFE (R44). Coachman mfe reads an engine control register into a g register. -/
  | mfe (c : CoreId) (gi : BitVec 4) (addr : BitVec 10) (rsv : BitVec 12)
  /-- MTC (R32). Coachman mtc writes a loop level's count register from a g register. -/
  | mtc (c : CoreId) (lvl : BitVec 2) (gi : BitVec 4) (rsv : BitVec 20)
  /-- MFL (R41). Coachman mfl reads a loop level's index register. -/
  | mfl (c : CoreId) (lvl : BitVec 2) (gi : BitVec 4) (rsv : BitVec 20)
  /-- RDT (R42). Coachman rdt reads the step counter, Fabric Time or task cycle count, latching the high half on a low read. -/
  | rdt (c : CoreId) (rd : BitVec 4) (sel : BitVec 3) (rsv : BitVec 19)
  /-- LOAD (R46). L-slot load reads a scratchpad unit set into a vector, lane operand, broadcast or lane-store register. -/
  | load (c : CoreId) (ind : Bool) (kind : BitVec 3) (reg : BitVec 5) (gi : BitVec 4) (addr : BitVec 16) (ecc : Ecc)
  /-- ACC_PRELOAD (R88). L-slot kind-4 load preloads one accumulator word in every lane, the top word completing an exact preload. -/
  | accPreload (c : CoreId) (ind : Bool) (reg : BitVec 5) (gi : BitVec 4) (addr : BitVec 16) (ecc : Ecc)
  /-- STORE (R46). L-slot store writes a vector register to a scratchpad unit. -/
  | store (c : CoreId) (ind : Bool) (kind : BitVec 3) (reg : BitVec 5) (gi : BitVec 4) (addr : BitVec 16)
  /-- LOAD_LANDING (R46). A load's data reaches its engine register at the profile latency, losing to a same-cycle V result or M update. -/
  | loadLanding (c : CoreId)
  /-- MMX (R79). Fast-mode multiply forms each lane's block sum, rounds it to FP32 and schedules its accumulator update. -/
  | mmx (c : CoreId) (w : BitVec 43)
  /-- MMXE (R79). Exact-mode multiply forms exact products for the window and occupies the multiplier for its pair's cycles. -/
  | mmxe (c : CoreId) (w : BitVec 43)
  /-- MCLR (R87). mclr sets a group's mode, latches its Ebase and clears it at its update stage. -/
  | mclr (c : CoreId) (w : BitVec 43)
  /-- MDRN (R94). mdrn converts an accumulator in every lane to an output format for a vector register or scratchpad. -/
  | mdrn (c : CoreId) (w : BitVec 43)
  /-- MRAW (R98). mraw writes the exact accumulator images of a group into eight vector registers. -/
  | mraw (c : CoreId) (w : BitVec 43)
  /-- MIMG (R89). mimg loads each lane's exact accumulator from an image in the lane operand register. -/
  | mimg (c : CoreId) (w : BitVec 43)
  /-- MCHK (R101). mchk copies check-row residues from a vector register into a check slot. -/
  | mchk (c : CoreId) (w : BitVec 43)
  /-- ACC_UPDATE (R90). At its update stage an mmx, mmxe, mclr or mimg adds to, clears or replaces the target accumulator. -/
  | accUpdate (c : CoreId)
  /-- CHECK_VERDICT (R103). The check lane's verdict is compared with the lane residue sum 22 cycles after the update, failure starting a revoke. -/
  | checkVerdict (c : CoreId) (disturb : BitVec 61) (resid : Resid)
  /-- DRAIN_LANDING (R96). An mdrn or mraw result is written to its vector register or scratchpad unit at its landing cycle. -/
  | drainLanding (c : CoreId) (resid : Resid)
  /-- BALLAST_DUMMY (R106). With ballast set, the matrix engine repeats the last multiply's reads in an unoccupied cycle, discarding results. -/
  | ballastDummy (c : CoreId)
  /-- VADD (R109). Vector add of va and B, lane by lane. -/
  | vadd (c : CoreId) (w : BitVec 42)
  /-- VSUB (R109). Vector subtract of B from va. -/
  | vsub (c : CoreId) (w : BitVec 42)
  /-- VMUL (R109). Vector multiply of va and B. -/
  | vmul (c : CoreId) (w : BitVec 42)
  /-- VFMA (R109). Fused multiply-add va × B + vd, rounded once. -/
  | vfma (c : CoreId) (w : BitVec 42)
  /-- VFNMA (R109). Fused vd − va × B, rounded once. -/
  | vfnma (c : CoreId) (w : BitVec 42)
  /-- VMIN (R109). Vector minimum of va and B. -/
  | vmin (c : CoreId) (w : BitVec 42)
  /-- VMAX (R109). Vector maximum of va and B. -/
  | vmax (c : CoreId) (w : BitVec 42)
  /-- VABS (R109). Vector absolute value by sign bit. -/
  | vabs (c : CoreId) (w : BitVec 42)
  /-- VNEG (R109). Vector negation by sign bit. -/
  | vneg (c : CoreId) (w : BitVec 42)
  /-- VCMP (R109). Vector compare writes INT32 1 or 0 for the selected relation. -/
  | vcmp (c : CoreId) (w : BitVec 42)
  /-- VSEL (R111). Vector select writes va where B is nonzero, keeping vd elsewhere. -/
  | vsel (c : CoreId) (w : BitVec 42)
  /-- VAND (R111). Vector bitwise and. -/
  | vand (c : CoreId) (w : BitVec 42)
  /-- VOR (R111). Vector bitwise or. -/
  | vor (c : CoreId) (w : BitVec 42)
  /-- VXOR (R111). Vector bitwise exclusive or. -/
  | vxor (c : CoreId) (w : BitVec 42)
  /-- VSLL (R111). Vector shift left by B[4:0]. -/
  | vsll (c : CoreId) (w : BitVec 42)
  /-- VSRL (R111). Vector shift right with zero fill. -/
  | vsrl (c : CoreId) (w : BitVec 42)
  /-- VSRA (R111). Vector shift right with sign fill. -/
  | vsra (c : CoreId) (w : BitVec 42)
  /-- VMOV (R109). Vector move of B to vd. -/
  | vmov (c : CoreId) (w : BitVec 42)
  /-- VFN_EXP2 (R127). Function exp2 by the table algorithm. -/
  | vfnExp2 (c : CoreId) (w : BitVec 38)
  /-- VFN_LOG2 (R127). Function log2 by the table algorithm. -/
  | vfnLog2 (c : CoreId) (w : BitVec 38)
  /-- VFN_RECIPROCAL (R127). Function reciprocal by the table algorithm. -/
  | vfnReciprocal (c : CoreId) (w : BitVec 38)
  /-- VFN_RSQRT (R127). Function rsqrt by the table algorithm. -/
  | vfnRsqrt (c : CoreId) (w : BitVec 38)
  /-- VFN_TANH (R127). Function tanh by the table algorithm. -/
  | vfnTanh (c : CoreId) (w : BitVec 38)
  /-- VFN_SIGMOID (R127). Function sigmoid by the table algorithm. -/
  | vfnSigmoid (c : CoreId) (w : BitVec 38)
  /-- VFN_SILU (R127). Function SiLU by the table algorithm. -/
  | vfnSilu (c : CoreId) (w : BitVec 38)
  /-- VFN_GELU (R127). Function GELU, tanh form, by the table algorithm. -/
  | vfnGelu (c : CoreId) (w : BitVec 38)
  /-- VFN_SIN (R127). Function sin of x turns by the table algorithm. -/
  | vfnSin (c : CoreId) (w : BitVec 38)
  /-- VFN_COS (R127). Function cos of x turns by the table algorithm. -/
  | vfnCos (c : CoreId) (w : BitVec 38)
  /-- VRAND (R124). vrand writes a CG64 draw per active lane in the selected form. -/
  | vrand (c : CoreId) (w : BitVec 42)
  /-- VCVT (R118). vcvt converts each active lane between formats under Table 3.4. -/
  | vcvt (c : CoreId) (w : BitVec 42)
  /-- VBENC (R120). vbenc encodes FP32 lanes into shared-scale blocks in split form. -/
  | vbenc (c : CoreId) (w : BitVec 42)
  /-- VBPACK (R120). vbpack packs split blocks into the packed block layout. -/
  | vbpack (c : CoreId) (w : BitVec 42)
  /-- VBUNPK (R120). vbunpk unpacks packed blocks into split form or FP32 values. -/
  | vbunpk (c : CoreId) (w : BitVec 42)
  /-- VRED (R121). vred reduces lane groups by sum, max, min, argmax or argmin in a binary tree. -/
  | vred (c : CoreId) (w : BitVec 42)
  /-- VRED_PREFIX (R122). vred kind 5 writes sequential prefix sums of active lanes. -/
  | vredPrefix (c : CoreId) (w : BitVec 42)
  /-- VTOPK (R123). vtopk selects the k largest FP32 candidates with their indices, fresh or merged. -/
  | vtopk (c : CoreId) (w : BitVec 42)
  /-- UMOM (R182). Momentum update round32(μ × m + g). -/
  | umom (c : CoreId) (w : BitVec 42)
  /-- USGD (R182). SGD parameter step with weight decay. -/
  | usgd (c : CoreId) (w : BitVec 42)
  /-- UADM1 (R182). Adam first-moment update. -/
  | uadm1 (c : CoreId) (w : BitVec 42)
  /-- UADM2 (R182). Adam second-moment update. -/
  | uadm2 (c : CoreId) (w : BitVec 42)
  /-- UADP (R182). Adam-form parameter step using rsqrt of the corrected second moment. -/
  | uadp (c : CoreId) (w : BitVec 42)
  /-- UKST (R182). Kronecker statistics row update. -/
  | ukst (c : CoreId) (w : BitVec 42)
  /-- UKNS (R182). Newton–Schulz row round32((5δ − M)/4). -/
  | ukns (c : CoreId) (w : BitVec 42)
  /-- UKAP (R182). Preconditioned parameter step with grafting scale. -/
  | ukap (c : CoreId) (w : BitVec 42)
  /-- V_RESULT_LANDING (R115). A V result is written to its register at the profile latency, with residue checks and flags. -/
  | vResultLanding (c : CoreId) (bad : Bool)
  /-- SGET (R143). sget translates an item address and issues a fetch, remote read or multicast into the ring's next free slot. -/
  | sget (c : CoreId) (ring : BitVec 5) (gi : BitVec 4) (greg : Bool) (disp : BitVec 18) (mem : Ecc)
  /-- SPUT (R147). sput sends the ring's head slot to its item address using one egress credit. -/
  | sput (c : CoreId) (ring : BitVec 5) (gi : BitVec 4) (greg : Bool) (disp : BitVec 18)
  /-- SDUE (R143). sdue marks the head slot DUE and makes its arrival check, braking if the item has not landed. -/
  | sdue (c : CoreId) (ring : BitVec 5) (gi : BitVec 4) (greg : Bool) (disp : BitVec 18)
  /-- SREL (R143). srel frees the consumed slot and returns its credit. -/
  | srel (c : CoreId) (ring : BitVec 5) (gi : BitVec 4) (greg : Bool) (disp : BitVec 18)
  /-- SDRAIN (R147). sdrain checks that every earlier sput of the ring has completed, braking otherwise, and returns their credits. -/
  | sdrain (c : CoreId) (ring : BitVec 5) (gi : BitVec 4) (greg : Bool) (disp : BitVec 18)
  /-- FILL_BEAT (R145). One 256-byte beat of a landing item is written through the fill port. -/
  | fillBeat (c : CoreId)
  /-- EGRESS_BEAT (R147). The egress port reads one beat of an sput or scratchpad send at its scheduled cycle. -/
  | egressBeat (c : CoreId) (ecc : Ecc)
  /-- SPUT_COMPLETE (R147). An sput completes when its destination accepts its last beat. -/
  | sputComplete (c : CoreId)
  /-- SIDING_ENTRY (R255). A durable put or control-node message completes at the siding, tagged with job and step. -/
  | sidingEntry (ch : ChId)
  /-- REMOTE_READ (R148). A remote-ring read is performed at the source core 24 cycles after its sget. -/
  | remoteRead (c : CoreId) (ecc : Ecc)
  /-- REMOTE_RING_CHECK (R148). The implicit arrival check of a remote slot at t+42 brakes if the 64 B have not landed. -/
  | remoteRingCheck (c : CoreId)
  /-- MEMBER_SREL_ARRIVAL (R149). A multicast member's srel reaches the lead, freeing the lead slot once all members have released. -/
  | memberSrelArrival (c : CoreId)
  /-- SEGMENT_STATE_TIMEOUT (R138). A segment's zeroing or shutdown count expires and the segment becomes ON or OFF. -/
  | segmentStateTimeout (c : CoreId)
  /-- SEND (R157). send executes at the X queue head and transmits a vector register or scratchpad message on a coupled connection. -/
  | send (c : CoreId) (conn : BitVec 6) (src : Bool) (lo : BitVec 21)
  /-- RECV (R162). recv takes the oldest message of a queue, braking or holding when empty. -/
  | recv (c : CoreId) (qn : BitVec 4) (dst : Bool) (vd : BitVec 5) (rsv : BitVec 2) (unit : BitVec 16)
  /-- X_SEL (R163). sel chooses a masked queue holding a message by priority or rotation and receives from it. -/
  | xSel (c : CoreId) (mask : BitVec 16) (pol : Bool) (dst : Bool) (vd : BitVec 5) (gi : BitVec 4) (rsv : BitVec 1)
  /-- WAIT (R172). wait sends a threshold request to a synchronisation object's home and holds the X queue head. -/
  | wait (c : CoreId) (obj : BitVec 12) (gi : BitVec 4) (mode : Bool) (rsv : BitVec 11)
  /-- SIGNAL (R172). signal sends an increment to a synchronisation object's home. -/
  | signal (c : CoreId) (obj : BitVec 12) (inc : BitVec 16)
  /-- COUPLE (R155). couple opens a send end with a new generation and sends a COUPLE marker, or reopens a receive end. -/
  | couple (c : CoreId) (conn : BitVec 6) (rsv : BitVec 22)
  /-- UNCOUPLE (R156). uncouple closes a send end behind an UNCOUPLE marker, or closes a receive end. -/
  | uncouple (c : CoreId) (conn : BitVec 6) (rsv : BitVec 22)
  /-- X_HEAD_RELEASE (R48). A held X queue head executes once its message, READY slot or wait release is present. -/
  | xHeadRelease (c : CoreId)
  /-- MESSAGE_ARRIVAL (R160). A message's first unit reaches a receive store and is accepted or refused FULL or CLOSED. -/
  | messageArrival (c : CoreId)
  /-- COUPLE_MARKER_ARRIVAL (R155). A COUPLE marker reaches a receiver, which records the handle or refuses CLOSED. -/
  | coupleMarkerArrival (c : CoreId)
  /-- UNCOUPLE_MARKER_ARRIVAL (R156). An UNCOUPLE marker reaches a receiver, which deletes the handle's record. -/
  | uncoupleMarkerArrival (c : CoreId)
  /-- REFUSAL_ARRIVAL (R160). A FULL or CLOSED refusal reaches the sender, halting a strict end or counting on a lenient end. -/
  | refusalArrival (c : CoreId)
  /-- HOPPER_CONTRIBUTION (R166). A hopper contribution arrives and is accepted, buffered or refused by round and sender index, with its digest checked. -/
  | hopperContribution (c : CoreId) (corrupt : BitVec 61)
  /-- HOPPER_FOLD (R168). The fold adder combines one unit of the next contribution in ascending sender index. -/
  | hopperFold (c : CoreId)
  /-- SIGNAL_ARRIVAL (R173). A signal reaches its object's home and is applied in the home's cycle order. -/
  | signalArrival (ch : ChId) (obj : BitVec 12)
  /-- WAIT_TEST (R172). A pending wait is tested at the object's home, subtracting in mode 1 when satisfied. -/
  | waitTest (ch : ChId) (obj : BitVec 12)
  /-- WAIT_RELEASE_ARRIVAL (R172). A satisfied wait's release reaches the waiting core 16 cycles later. -/
  | waitReleaseArrival (c : CoreId)
  /-- SIGNAL_FRAME (R346). An Ahnec signal frame adds an increment to a granted object. -/
  | signalFrame (ch : ChId) (obj : BitVec 12) (inc : Word) (jb : BitVec 16)
  /-- TASK_END (R38). A done task ends after its last operation completes, closing its queues and reporting completion. -/
  | taskEnd (c : CoreId)
  /-- BRAKE_END (R228). The brake ends after the last cycle in which a cause holds, logging the episode. -/
  | brakeEnd (ch : ChId)
  /-- BRAKE_LIMIT (R232). An episode reaching CH_BRAKE_LIMIT cycles sends one event while the brake continues. -/
  | brakeLimit (ch : ChId)
  /-- THROTTLE_BRAKE (R233). With a throttle gap set, the channel brakes one cycle after every n − 1 schedule cycles. -/
  | throttleBrake (ch : ChId)
  /-- DROOP_STRETCH (R220). A region's droop detector stretches periods and requests the other regions to stretch alike. -/
  | droopStretch (ch : ChId) (region : BitVec 3) (periods : BitVec 4) (permille : BitVec 9)
  /-- OPPOINT_SWITCH (R222). At the agreed Fabric Time all regions switch to the new operating point at one cycle number. -/
  | oppointSwitch (ch : ChId)
  /-- TIME_FLIT_SEND (R317). A port sends a TIME flit after each multiple of 1,024 ticks. -/
  | timeFlitSend (ch : ChId) (p : BitVec 3)
  /-- TIME_STAMP_RECEIPT (R224). A stamp from the time source gives an offset on which the channel slews, steps or locks. -/
  | timeStampReceipt (ch : ChId) (p : BitVec 3) (stamp : BitVec 64) (rx : BitVec 64) (stratum : Byte)
  /-- LINK_DELAY_MEASUREMENT (R317). Every 2^20 ticks a port measures its one-way delay by an ECHO exchange. -/
  | linkDelayMeasurement (ch : ChId) (p : BitVec 3)
  /-- ECHO_REQ (R317). A received ECHO_REQ is answered with an ECHO_RSP carrying its stamps. -/
  | echoReq (ch : ChId) (p : BitVec 3) (t1 : BitVec 64) (t2 : BitVec 64)
  /-- ECHO_RSP (R317). A received ECHO_RSP yields the link's one-way delay. -/
  | echoRsp (ch : ChId) (p : BitVec 3) (t1 : BitVec 64) (t2 : BitVec 64) (t3 : BitVec 64) (t4 : BitVec 64)
  /-- FT_SOURCE_LOST (R225). Loss of the time source enters holdover on the main oscillator and sends an event. -/
  | ftSourceLost (ch : ChId)
  /-- LAUNCH_RELEASE (R226). At the first cycle at or past the launch count the channel releases held tasks and applies staged map writes. -/
  | launchRelease (ch : ChId) (j : JobSlot)
  /-- BARRIER_START (R227). The hub starts a LOADED job's first row word on every channel by barrier. -/
  | barrierStart (j : JobSlot)
  /-- STEP_CLEAR (R258). When every condition of a step holds in a channel, it sends CLEAR(s) to the lead channel. -/
  | stepClear (ch : ChId) (j : JobSlot)
  /-- LCTL_CLEAR (R258). The lead receives CLEAR(s); once all channels have cleared it sends COMMIT(s). -/
  | lctlClear (ch : ChId) (k : Lctl)
  /-- LCTL_COMMIT (R259). A channel receiving COMMIT(s) sets MARK := TOP, releases the siding and hands over the journal record. -/
  | lctlCommit (ch : ChId) (k : Lctl)
  /-- COMMIT_COMPLETE (R259). A commit completes when all durable puts are accepted, the siding is empty of the step and the record is accepted. -/
  | commitComplete (ch : ChId) (j : JobSlot)
  /-- LCTL_REVOKE (R263). A revoke of a step reaches a channel, which stops the job's cores and restores under Table 12.3. -/
  | lctlRevoke (ch : ChId) (k : Lctl)
  /-- REVOKE_DRAIN_COMPLETE (R265). After the job's in-flight transfers drain, the channel discards siding entries, shunts, restores copies and refetches slots. -/
  | revokeDrainComplete (ch : ChId) (j : JobSlot)
  /-- SHUNT_COPY_COMPLETE (R269). The shunt copy to the spare ends; the logical core maps to the spare and the old position is FAILED. -/
  | shuntCopyComplete (ch : ChId) (cl : BitVec 3)
  /-- LCTL_BARRIER (R314). A BARRIER link control packet counts down and releases the receiving module's start. -/
  | lctlBarrier (ch : ChId) (k : Lctl)
  /-- LACK (R314). An LACK acknowledges an LCTL and stops its resends. -/
  | lack (ch : ChId) (id : BitVec 16)
  /-- LCTL_RESEND_TIMEOUT (R314). An LCTL without LACK after 4 µs is resent, giving up after eight attempts. -/
  | lctlResendTimeout (ch : ChId) (id : BitVec 16)
  /-- SEIZE_FENCE_DRAINED (R272). A fenced position's transfers have drained, and the dump, seize and release steps follow. -/
  | seizeFenceDrained (ch : ChId)
  /-- FLIT_RECEIPT (R308). A received flit is FEC-decoded and CRC-checked, accepted in order or NAK-ed, and its header ACK and credits applied. -/
  | flitReceipt (ch : ChId) (p : BitVec 3) (bytes : List Byte)
  /-- RDREQ (R312). A read request packet reaches its home, which reads and returns RDDATA or FAULT. -/
  | rdreq (ch : ChId) (ecc : Ecc) (k : Pkt)
  /-- RDDATA (R312). Read data reaches the issuing channel and lands in the ring slot. -/
  | rddata (ch : ChId) (k : Pkt)
  /-- PKT_WRITE (R312). A WRITE packet reaches its home, which writes and returns WRDONE or FAULT. -/
  | pktWrite (ch : ChId) (k : Pkt)
  /-- WRDONE (R312). A write completion returns to the issuing channel. -/
  | wrdone (ch : ChId) (k : Pkt)
  /-- FAULT (R212). A FAULT packet reports a refused page or uncorrectable read to the issuer. -/
  | fault (ch : ChId) (k : Pkt)
  /-- REACH (R322). A REACH notice marks a device unreachable or reachable through a port and switches routes. -/
  | reach (ch : ChId) (p : BitVec 3) (k : Pkt)
  /-- GDDR7_REFRESH (R193). The controller refreshes the devices at their required interval. -/
  | gddr7Refresh (ch : ChId)
  /-- SELF_REFRESH_ENTRY (R193). An isolated channel's GDDR7 re-enters self-refresh after 10 µs with no hub access. -/
  | selfRefreshEntry (ch : ChId)
  /-- CXL_LINK_DOWN (R201). The CXL link goes down; reads do not land and writes are discarded with events. -/
  | cxlLinkDown (ch : ChId)
  /-- CXL_BRINGUP_COMPLETE (R202). CXL training and HDM programming finish and CXL_BYTES is recorded. -/
  | cxlBringupComplete (ch : ChId) (width : Byte) (rate : Byte) (cap : BitVec 64) (fits : Bool)
  /-- PORT_SIGNAL_DETECT (R318). A DOWN port detects signal and enters TRAINING. -/
  | portSignalDetect (ch : ChId) (p : BitVec 3)
  /-- PORT_TRAINING_COMPLETE (R319). Training exchanges identity, delay and credits and the port enters UP, or FAULT when miswired. -/
  | portTrainingComplete (ch : ChId) (p : BitVec 3) (peer : Word) (delay : Word) (flight : Byte) (stratum : Byte)
  /-- PORT_TRAINING_TIMEOUT (R318). Training not complete in 2 ms returns the port to DOWN. -/
  | portTrainingTimeout (ch : ChId) (p : BitVec 3)
  /-- PORT_LINK_LOSS (R318). Loss of signal or alignment for 1 µs puts the port DOWN and routes move to alternates. -/
  | portLinkLoss (ch : ChId) (p : BitVec 3)
  /-- PORT_ACK_TIMEOUT (R318). No ACK progress for 10 µs puts the port into FAULT. -/
  | portAckTimeout (ch : ChId) (p : BitVec 3)
  /-- PORT_SHUTDOWN_COMPLETE (R318). A port in SHUTDOWN turns off its transmitters and becomes DISABLED, or RESTARTING then DOWN. -/
  | portShutdownComplete (ch : ChId) (p : BitVec 3)
  /-- LNK_ENABLE (R318). Writing LNK_ENABLE true enables a port to DOWN, or to RESTARTING during SHUTDOWN. -/
  | lnkEnable (q : Req) (ch : ChId) (p : BitVec 3)
  /-- LNK_DISABLE (R318). Writing LNK_ENABLE false stops new packets and starts SHUTDOWN. -/
  | lnkDisable (q : Req) (ch : ChId) (p : BitVec 3)
  /-- LNK_ROUTE_DATA (R321). A route-table window write is taken entry by entry under the route checks. -/
  | lnkRouteData (q : Req) (ch : ChId) (bytes : List Byte)
  /-- AHN_FRAME_RECEIPT (R335). An Ahnec frame is checked by header and trailer CRC, accepted in LSEQ order or NAK-ed, and delivered by class CSEQ. -/
  | ahnFrameReceipt (l : BitVec 1) (bytes : List Byte)
  /-- AHN_RESEND_TIMEOUT (R335). No LACK progress for 50 µs resends every frame from LACK + 1. -/
  | ahnResendTimeout (l : BitVec 1)
  /-- AHN_LIGHT_DETECT (R331). A DARK link detects light and FEC lock and enters TRAINING. -/
  | ahnLightDetect (l : BitVec 1)
  /-- AHN_TRAINING_COMPLETE (R331). Word alignment and a valid link word bring the link UP with credits returned. -/
  | ahnTrainingComplete (l : BitVec 1)
  /-- AHN_TRAINING_TIMEOUT (R331). Training not complete in 1 ms returns the link to DARK. -/
  | ahnTrainingTimeout (l : BitVec 1)
  /-- AHN_LINK_LOSS (R336). A link goes DARK and the device resends its unacknowledged frames on the other link. -/
  | ahnLinkLoss (l : BitVec 1)
  /-- AHN_SHUTDOWN_COMPLETE (R331). A link in SHUTDOWN turns off and becomes DISABLED, or RESTARTING then DARK. -/
  | ahnShutdownComplete (l : BitVec 1)
  /-- AHN_ENABLE (R331). Writing AHN_ENABLE true enables a link, or restarts it during SHUTDOWN. -/
  | ahnEnable (q : Req) (l : BitVec 1)
  /-- AHN_DISABLE (R331). Writing AHN_ENABLE false stops new frames and starts SHUTDOWN. -/
  | ahnDisable (q : Req) (l : BitVec 1)
  /-- AHN_CLASS_GAP (R337). A class gap lasting 10 ms sends one event. -/
  | ahnClassGap (l : BitVec 1) (cls : BitVec 3)
  /-- CARTRIDGE_LINK_TIMEOUT (R295). No response for 10 ms or 16 CRC failures in one second puts the bay into link fault. -/
  | cartridgeLinkTimeout (b : BitVec 1)
  /-- EVENT_FRAME_SEND (R347). The hub sends held event records in an event frame when credits allow. -/
  | eventFrameSend
  /-- MANIFEST (R340). An instruction-stream frame delivers manifest bytes, checked for header and signature. -/
  | manifest (j : JobSlot) (off : BitVec 40) (bytes : List Byte)
  /-- SECTION (R340). An instruction-stream frame delivers small-section bytes for hash check and verification. -/
  | sectionBytes (j : JobSlot) (sec : BitVec 16) (off : BitVec 40) (bytes : List Byte)
  /-- CHUNK (R341). An instruction-stream frame delivers a bulk chunk, placed at load or written to rings under the credit rule. -/
  | chunk (j : JobSlot) (mask : BitVec 4) (sec : BitVec 16) (num : BitVec 40) (bytes : List Byte)
  /-- DATA_WRITE (R343). A data-class WRITE is translated and written at its home, then acknowledged. -/
  | dataWrite (ch : ChId) (jb : BitVec 16) (addr : BitVec 56) (bytes : List Byte) (cseq : Word)
  /-- DATA_READ (R343). A data-class READ is translated and answered with READ_DATA. -/
  | dataRead (ch : ChId) (jb : BitVec 16) (addr : BitVec 56) (len : Word) (cseq : Word)
  /-- MSG_IN (R344). A control-node message is offered to a named queue and answered with MSG_STATUS. -/
  | msgIn (c : CoreId) (jb : BitVec 16) (qn : BitVec 4) (bytes : List Byte) (cseq : Word)
  /-- DICT_READ (R348). A dictionary read request is answered with the value. -/
  | dictRead (q : Req) (idx : BitVec 16) (sub : Byte)
  /-- DICT_WRITE (R348). A dictionary write to an object without its own behaviour is checked for access, type, range and signature and applied. -/
  | dictWrite (q : Req) (idx : BitVec 16) (sub : Byte) (bytes : List Byte)
  /-- QUOTE_REQ (R382). A quote request is answered with a device-signed attestation quote. -/
  | quoteReq (q : Req) (nonce : List Byte) (mask : BitVec 64)
  /-- SYNC_GRANT_APPLY (R171). Writing SYNC_GRANT_APPLY grants or releases a range of objects. -/
  | syncGrantApply (q : Req) (ch : ChId) (v : Byte)
  /-- SYNC_DUMP_TAKE (R176). Writing SYNC_DUMP_TAKE captures every object into nine dump pages. -/
  | syncDumpTake (q : Req) (ch : ChId) (v : Byte)
  /-- CH_OPPOINT_AT (R221). Writing CH_OPPOINT_AT requests an operating-point change at a Fabric Time, or is refused. -/
  | chOppointAt (q : Req) (ch : ChId) (at_ : BitVec 64)
  /-- FAM_REGION_WRITE (R204). A region write is checked and applied at once or staged. -/
  | famRegionWrite (q : Req) (ch : ChId) (n : BitVec 6) (bytes : List Byte)
  /-- FAM_WIN_DATA (R216). A map window write is taken entry by entry, applied or staged. -/
  | famWinData (q : Req) (ch : ChId) (bytes : List Byte)
  /-- JOB_PLACE (R239). A write stores up to 128 placement records in a FREE slot. -/
  | jobPlace (q : Req) (j : JobSlot) (bytes : List Byte)
  /-- JOB_OPEN (R238). Writing JOB_OPEN latches the placement and makes the slot RECEIVING. -/
  | jobOpen (q : Req) (j : JobSlot) (v : Byte)
  /-- JOB_SEED (R249). Writing JOB_SEED sets the value of a MODE 2 seed slot before the first launch. -/
  | jobSeed (q : Req) (j : JobSlot) (val : BitVec 64)
  /-- JOB_LAUNCH (R250). Writing JOB_LAUNCH sets the launch count of the next step, or is refused. -/
  | jobLaunch (q : Req) (j : JobSlot) (count : BitVec 64)
  /-- JOB_BARRIER (R227). Writing JOB_BARRIER starts a LOADED job by barrier. -/
  | jobBarrier (q : Req) (j : JobSlot) (v : Byte)
  /-- JOB_RELEASE (R238). Writing JOB_RELEASE clears an ENDED or REJECTED slot, or abandons a RECEIVING one. -/
  | jobRelease (q : Req) (j : JobSlot) (v : Byte)
  /-- CHK_REVOKE_GO (R262). Writing CHK_REVOKE_GO orders a revoke of the job's newest uncleared step. -/
  | chkRevokeGo (q : Req) (ch : ChId) (v : Byte)
  /-- CHK_POS_RESTORE (R270). Writing CHK_POS_RESTORE returns a FAILED position to the spare state after a clean inspection. -/
  | chkPosRestore (q : Req) (ch : ChId) (v : Byte)
  /-- CHK_SEIZE_POS (R272). Writing CHK_SEIZE_POS seizes a named position in fence, dump, seize, release order. -/
  | chkSeizePos (q : Req) (ch : ChId) (v : Byte)
  /-- CHK_INSP_ARM (R276). Writing CHK_INSP_ARM arms an inspection window for an untasked position. -/
  | chkInspArm (q : Req) (ch : ChId) (v : Byte)
  /-- INSPECTION_WINDOW_START (R276). An armed inspection window opens and patterns start running in record order. -/
  | inspectionWindowStart (ch : ChId)
  /-- PATTERN_RESULT (R277). A pattern's egressed result is compared bit for bit, a failure writing a KIND 6 signature. -/
  | patternResult (ch : ChId) (bytes : List Byte)
  /-- INSPECTION_WINDOW_CLOSE (R277). An inspection window closes and CHK_INSP_RESULT is written. -/
  | inspectionWindowClose (ch : ChId)
  /-- TPK_VERIFY (R275). Writing TPK_VERIFY checks a test-pattern package's key, signature, class and fields. -/
  | tpkVerify (q : Req) (v : Byte)
  /-- CW_HALT_CMD (R364). Writing CW_HALT_CMD commands a halt of the selected core at the next row-word boundary. -/
  | cwHaltCmd (q : Req) (ch : ChId) (v : Byte)
  /-- CH_ISOLATE (R389). CH_REQUEST 1 stops the channel's jobs and takes it to Isolated. -/
  | chIsolate (q : Req) (ch : ChId)
  /-- CH_RELOAD (R389). CH_REQUEST 2 reloads the channel through Reloading to Serving, keeping memory. -/
  | chReload (q : Req) (ch : ChId)
  /-- CH_RESET (R389). CH_REQUEST 3 resets the channel through Resetting to Isolated, zeroing GDDR7. -/
  | chReset (q : Req) (ch : ChId)
  /-- CH_SERVE (R389). CH_REQUEST 4 brings an Isolated channel to Serving. -/
  | chServe (q : Req) (ch : ChId)
  /-- CH_TRANSITION_COMPLETE (R389). A channel transition completes, entering its new state and applying any held request. -/
  | chTransitionComplete (ch : ChId)
  /-- MOD_STANDBY_REQUEST (R388). MOD_REQUEST 1 isolates every channel and powers the main side down to Standby. -/
  | modStandbyRequest (q : Req)
  /-- MOD_READY_REQUEST (R388). MOD_REQUEST 2 powers the main side and hub from Standby to Ready. -/
  | modReadyRequest (q : Req)
  /-- MOD_HUB_RESET (R19). MOD_HUB_RESET stops every channel and resets the hub. -/
  | modHubReset (q : Req) (v : Byte)
  /-- AUX_POWER_UP (R388). The auxiliary input comes within rating and the module enters Standby from ROM. -/
  | auxPowerUp (pos : BitVec 2)
  /-- AUX_POWER_LOSS (R387). The auxiliary input below 10.8 V for 1 ms puts the module Off. -/
  | auxPowerLoss
  /-- MAIN_INPUT_LOSS (R387). The main input outside 38–62 V for 100 µs drops the module abruptly to Standby. -/
  | mainInputLoss
  /-- THROTTLE_EVALUATION (R393). Each 1 ms reading is tested against power and thermal triggers, setting gaps or operating-point steps. -/
  | throttleEvaluation (r : Readings)
  /-- MGT_PROG_GO (R375). Writing MGT_PROG_GO verifies the management program and starts it. -/
  | mgtProgGo (q : Req) (v : Byte)
  /-- SEC_OWNER_KEY (R379). A signed write registers or clears an owner key slot. -/
  | secOwnerKey (q : Req) (n : BitVec 2) (key : List Byte) (sig : List Byte)
  /-- JNL_SEAL_NOW (R286). Writing JNL_SEAL_NOW seals the current segment and opens the next. -/
  | jnlSealNow (q : Req) (v : Byte)
  /-- SEGMENT_TIME_LIMIT (R286). JNL_SEG_TICKS after an OPEN the hub seals the segment. -/
  | segmentTimeLimit
  /-- BAY_EJECT (R294). Writing BAY_EJECT seals the segment, obtains the receipt and stops writing the bay. -/
  | bayEject (q : Req) (b : BitVec 1) (v : Byte)
  /-- CARTRIDGE_INSERTED (R297). An inserted cartridge trains its link and is identified by certificate and challenge. -/
  | cartridgeInserted (b : BitVec 1)
  /-- CARTRIDGE_REMOVED (R294). A cartridge removed without eject sets its bay empty and opens a new segment. -/
  | cartridgeRemoved (b : BitVec 1)
  /-- APPEND_RESPONSE (R296). A cartridge answers an APPEND, making the records durable or faulting the bay. -/
  | appendResponse (b : BitVec 1) (tag : BitVec 16) (status : Byte)
  /-- CARTRIDGE_RESPONSE (R295). A cartridge answers another command with its response frame. -/
  | cartridgeResponse (b : BitVec 1) (tag : BitVec 16) (status : Byte) (bytes : List Byte)
  /-- DICT_REQ (R372). An MCTP vendor dictionary request is served as a dictionary request. -/
  | dictReq (bytes : List Byte)
  /-- EVENT_FETCH (R372). An MCTP event fetch returns records from the management store. -/
  | eventFetch (bytes : List Byte)
  /-- ENTDAA (R370). I3C ENTDAA assigns a dynamic address using the provisional ID. -/
  | entdaa (addr : BitVec 7)
  /-- SETDASA (R370). I3C SETDASA assigns a dynamic address from the static address. -/
  | setdasa (static : BitVec 7) (addr : BitVec 7)
  /-- RSTDAA (R369). I3C RSTDAA resets the dynamic address. -/
  | rstdaa
  /-- GETPID (R370). I3C GETPID returns the provisional ID. -/
  | getpid
  /-- GETBCR (R369). I3C GETBCR returns the bus characteristics register. -/
  | getbcr
  /-- GETDCR (R369). I3C GETDCR returns the device characteristics register. -/
  | getdcr
  /-- GETSTATUS (R372). I3C GETSTATUS returns status including a pending packet. -/
  | getstatus
  /-- GETMRL (R369). I3C GETMRL returns the maximum read length. -/
  | getmrl
  /-- SETMRL (R369). I3C SETMRL sets the maximum read length. -/
  | setmrl (len : BitVec 16)
  /-- GETMWL (R369). I3C GETMWL returns the maximum write length. -/
  | getmwl
  /-- SETMWL (R369). I3C SETMWL sets the maximum write length. -/
  | setmwl (len : BitVec 16)
  /-- ENEC (R372). I3C ENEC enables in-band interrupts. -/
  | enec (ev : Byte)
  /-- DISEC (R372). I3C DISEC disables in-band interrupts. -/
  | disec (ev : Byte)
  /-- SET_ENDPOINT_ID (R370). MCTP Set Endpoint ID assigns the endpoint ID. -/
  | setEndpointId (op : BitVec 2) (eid : Byte)
  /-- GET_ENDPOINT_ID (R369). MCTP Get Endpoint ID returns the endpoint ID. -/
  | getEndpointId
  /-- GET_MCTP_VERSION_SUPPORT (R369). MCTP Get MCTP Version Support returns supported versions. -/
  | getMctpVersionSupport (ty : Byte)
  /-- GET_MESSAGE_TYPE_SUPPORT (R369). MCTP Get Message Type Support returns supported message types. -/
  | getMessageTypeSupport
  /-- GET_VENDOR_MSG_SUPPORT (R369). MCTP Get Vendor Defined Message Support returns vendor message support. -/
  | getVendorMsgSupport (sel : Byte)
  /-- MOD_TRANSITION_COMPLETE (R388). A module power transition finishes its timed sequence: Standby to Ready at 20 ms, with MOD_STATE 2, link training and channels entering Resetting; or Ready or Serving to Standby at 30 ms. -/
  | modTransitionComplete
  /-- SYNC_WATCH_ARM (R174). Writing SYNC_WATCHn_ARM true arms a watch, which fires at the next home cycle if its object's counter already meets the threshold. -/
  | syncWatchArm (q : Req) (ch : ChId) (n : BitVec 5) (v : Byte)
  /-- SINGLE_BAY_WARNING (R289). While exactly one bay is ACTIVE the hub sends a warning event once a minute. -/
  | singleBayWarning
  /-- NO_ANSWER_TIMEOUT (R343). A data WRITE or READ whose home has not answered within 1 ms is answered with STATUS 0x34. -/
  | noAnswerTimeout
deriving DecidableEq, Repr

end Sys2Proof
end

