-- ==== Sys2Proof/Machine/State.lean ====
section
/-! DEFINITION. State: everything the spec gives the machine, as plain data.
Numbers the spec only counts or compares are Nat, with the spec's width and wrap kept by the operations that write them;
words software sees as bits are bit vectors. Tables list only the entries that differ from a default (Tab).
INVENTORY.md, State, gives each field's rule and reset value. -/

namespace Sys2Proof.Machine

/-- A table kept as its entries in strictly rising key; a key not listed reads as the default its reader names. -/
abbrev Tab (α : Type) := List (Nat × α)

/-- An addressed memory: the bytes that are not zero, in strictly rising address. -/
abbrev Mem := List Host.Cell

/-- Why the model stops. No command of the block stops it: the spec gives every row an effect. -/
inductive Fault where
  /-- Raised by no meaning; it stands so that the type has an element. Safe: nothing rests on it. -/
  | neverRaised
deriving DecidableEq, Repr

/-- Why a command is turned away. -/
inductive Refusal where
  /-- Answered only by an arm of exec whose command has no meaning yet. Safe: it claims nothing. -/
  | notModelled (mnemonic : String)
deriving DecidableEq, Repr

/-! ### The core -/

/-- What a core is doing (Table 16.9 CW_STATUS; R38, R226, R264, R271). `done` has stopped fetching and still counts as running. -/
inductive CoreStatus where
  | noTask | running | holding | stopped | done | ended | halted | unavailable
deriving DecidableEq, Repr

/-- The instruction an operation in flight came from: ring address, task cycle count at issue, slot code (R51), and the word. -/
structure Origin where
  pc   : Nat
  cyc  : Nat
  slot : Nat
  word : Nat
  step : Nat
deriving DecidableEq, Repr

/-- The halt record (Table 2.13). -/
structure HaltRec where
  cycle  : Nat
  reason : Nat
  async  : Bool
  slot   : Nat
  ring   : Nat
deriving DecidableEq, Repr

/-- A hardware loop level (R31): count register, shadow, index, body start and stop. -/
structure Loop where
  count  : Nat
  shadow : Nat
  index  : Nat
  start  : Nat
  stop   : Nat
  active : Bool
deriving DecidableEq, Repr

/-- An open skip window (R35): the slots it squashes and the row words left. -/
structure Skip where
  mask : BitVec 6
  left : Nat
deriving DecidableEq, Repr

/-- The dyadic rational num × 2^exp. -/
structure Dy where
  num : Int
  exp : Int
deriving DecidableEq, Repr

/-- One exact accumulator beside its group's Ebase (R68). -/
structure ExAcc where
  t    : Int
  n    : Nat
  pos  : Bool
  neg  : Bool
  nan  : Bool
  ovf  : Bool
deriving DecidableEq, Repr

/-- An exact accumulator image (Table 3.5). -/
structure ExImg where
  acc   : ExAcc
  ebase : Int
deriving DecidableEq, Repr

/-- A group of four accumulators (R85): its mode, the four FP32 accumulators of each lane and their residues, the exact accumulator
of each lane with its Ebase and its residue (R104), and the channel schedule cycle before which it is in transition (R87). -/
structure Group where
  exact    : Bool
  fast     : Tab (List Word)
  fastRes  : Tab (List Nat)
  ex       : List ExImg
  exRes    : List Nat
  transEnd : Nat
deriving DecidableEq, Repr

/-- An L-slot item on its way to an engine register (R46, R88): the unit it reads until the next schedule cycle begins, none where its
data is settled. -/
structure LItem where
  due  : Nat
  kind : Nat
  reg  : Nat
  unit : Option Nat
  data : List Byte
  org  : Origin
deriving DecidableEq, Repr

/-- A rounded block sum of one lane with the flags it raises (R72). -/
structure BlockSum where
  bits : Word
  sat  : Bool
  nan  : Bool
deriving DecidableEq, Repr

/-- What an M instruction does at its update stage (R90). A product that is NaN is none. -/
inductive MOp where
  | fast  (acc : Nat) (sums : List BlockSum)
  | exact (grp : Nat) (prods : List (List (Option Dy)))
  | clear (grp : Nat) (exact : Bool) (ebase : Int)
  | image (grp : Nat) (imgs : List ExImg)
deriving DecidableEq, Repr

/-- The operands of a multiply, kept for its verdict and its fault signature (R103, R274). -/
structure CheckInfo where
  evaluated  : Bool
  c          : Nat
  l          : Nat
  shared     : List Byte
  lane       : List Byte
  laneScales : List Byte
  scales     : Nat
deriving DecidableEq, Repr

/-- An M instruction before its update stage. -/
structure MItem where
  due   : Nat
  op    : MOp
  check : Option CheckInfo
  org   : Origin
deriving DecidableEq, Repr

/-- A check verdict on its way (R103), or the report of a residue a drain found (R104: no operands): due in channel cycles, for the
group it targets; `res` pairs the residue stored in each lane with that of the value read. -/
structure Verdict where
  due   : Nat
  grp   : Nat
  info  : Option CheckInfo
  res   : List (Nat × Nat)
  org   : Origin
deriving DecidableEq, Repr

/-- A result on its way to a vector register or the scratchpad: per lane the bits written and their mask
(mdrn, mraw: R94-R98; V results: R115, R116). `unit` is the scratchpad destination; `res` pairs the residues stored in the lanes a drain
read with those of the values read (R104). -/
structure VItem where
  due  : Nat
  vd   : Nat
  unit : Option Nat
  vals : List (Word × Word)
  sat  : Bool
  nan  : Bool
  grp  : Option Nat
  res  : List (Nat × Nat)
  ops  : List Byte
  org  : Origin
deriving DecidableEq, Repr

/-- An engine write of the cycle: first relative unit, bytes, instruction (R134). -/
structure EWrite where
  unit : Nat
  data : List Byte
  org  : Origin
deriving DecidableEq, Repr

/-- The power state of a scratchpad segment (Table 6.3). -/
inductive SegSt where
  | off | shutdown | restarting | zeroing | on
deriving DecidableEq, Repr

/-- A segment: its state, the channel schedule cycle at whose end it is left, and a power-down asked for meanwhile. -/
structure Seg where
  st    : SegSt
  till  : Nat
  down  : Bool
deriving DecidableEq, Repr

/-- A stream-ring descriptor with VALID = 1 (Table 6.5). -/
structure Desc where
  kind   : Nat
  land   : Nat
  bfmt   : Nat
  spos   : Nat
  scope  : Nat
  mask   : Nat
  region : Nat
  slots  : Nat
  slotsz : Nat
  faddr  : Nat
  stride : Nat
  blocks : Nat
deriving DecidableEq, Repr

/-- The state of a ring slot (R143). -/
inductive SlotSt where
  | free | issued | due
deriving DecidableEq, Repr

/-- A ring slot: state, the item index it holds, the channel cycle its last beat was written, the schedule cycle from which
its contents are read (R144), the units an engine wrote meanwhile, the members whose release
has reached it and whether its own core released it (R149), how often its contents changed (R151), the step it was issued in. -/
structure RSlot where
  st      : SlotSt
  item    : Nat
  landed  : Option Nat
  dueAt   : Nat
  written : List Nat
  freed   : List Nat
  released : Bool
  ver     : Nat
  step    : Nat
  seq     : Nat
deriving DecidableEq, Repr

/-- The physical home of a transfer (R207): device, channel, tier, byte address in the tier. -/
structure Target where
  dev  : Nat
  ch   : Nat
  tier : Nat
  addr : Nat
deriving DecidableEq, Repr

/-- A put of a put ring (R147): its number, how many homes have still to accept it, the channel cycle in which the last did, the
schedule cycle from which its credit is back, and where its bytes go. -/
structure Put where
  id     : Nat
  need   : Nat
  doneAt : Option Nat
  backAt : Option Nat
  dests  : List Target
  len    : Nat
deriving DecidableEq, Repr

/-- A stream ring: descriptor, slots, pointers, puts not yet credited. -/
structure Ring where
  desc  : Option Desc
  slots : Tab RSlot
  tail  : Nat
  head  : Nat
  rel   : Nat
  puts  : List Put
deriving DecidableEq, Repr

/-- The put a beat at another core's fill port belongs to (R147, R212): its core, ring and number, the whole put's place in the
target's rows, whether the beat is the last. -/
structure PutRef where
  core : Nat
  ring : Nat
  id   : Nat
  lo   : Nat
  len  : Nat
  last : Bool
  org  : Origin
deriving DecidableEq, Repr

/-- The WRITE packet a beat at a fill port came in (R147, R312): its place in the target's rows, who sent it, its TAG, whether the beat is
its last. -/
structure PktRef where
  lo   : Nat
  len  : Nat
  dev  : Nat
  ch   : Nat
  tag  : Nat
  last : Bool
deriving DecidableEq, Repr

/-- What a beat at a fill port is of: an item of a ring slot, a received message (R162), a put of a core of this channel or of another
(R147). -/
inductive BeatOf where
  | item (ring slot seq : Nat) (last : Bool)
  | recv
  | put (r : PutRef)
  | pkt (r : PktRef)
deriving DecidableEq, Repr

/-- One beat at a fill port (R145): the cycle from which it may be written (channel cycles; schedule cycles for a received message),
its order (the tick and the core of its issue), what it is of, and what it writes: byte addresses relative to TASK_BASE and bytes. -/
structure Beat where
  arrive : Nat
  order  : Nat
  kind   : BeatOf
  writes : List (Nat × List Byte)
deriving DecidableEq, Repr

/-- A connection-table entry with VALID = 1 (Table 7.1) and its state: open, generation, SEQ, whether a couple ever opened it,
whether a CLOSED refusal closed it (R154-R157). -/
structure Conn where
  role    : Nat
  strict  : Bool
  peerk   : Bool
  size    : Nat
  queue   : Nat
  depth   : Nat
  pdev    : Nat
  pch     : Nat
  pcl     : Nat
  pcore   : Nat
  any     : Bool
  hcount  : Nat
  harith  : Nat
  hpend   : Nat
  digest  : Bool
  isOpen  : Bool
  gen     : Nat
  seq     : Nat
  refused : Bool
deriving DecidableEq, Repr

/-- A message, marker or refusal: the header of Table 7.2 and its payload. SRC and DST are [20:9] device and [8:0] core.
`fromNode` marks a MSG_IN of the control node (R344). -/
structure Msg where
  type     : Nat
  src      : Nat
  dst      : Nat
  entry    : Nat
  gen      : Nat
  queue    : Nat
  sidx     : Nat
  seq      : Nat
  digest   : Option Nat
  payload  : List Byte
  fromNode : Bool
  org      : Origin
deriving DecidableEq, Repr

/-- An egress job (R147, R157): the scratchpad beats still to be read, from schedule cycle `next`; its place in the order of issue (R145);
a put's ring, number and homes, or the message a send forms. -/
structure Egress where
  next   : Nat
  order  : Nat
  id     : Nat
  ring   : Nat
  addr   : Nat
  left   : Nat
  data   : List Byte
  dests  : List Target
  faddr  : Nat
  dur    : Bool
  msg    : Option Msg
  org    : Origin
deriving DecidableEq, Repr

/-- A put whose bytes have left the core, or a message for the control node: it completes at its home or siding at `due` (channel
cycles). -/
structure PutFly where
  due   : Nat
  ring  : Nat
  id    : Nat
  dests : List Target
  faddr : Nat
  data  : List Byte
  dur   : Bool
  msg   : Option Msg
  org   : Origin
deriving DecidableEq, Repr

/-- An X instruction as it waits in the issue queue, with the g value read at issue (R157). -/
inductive XOp where
  | send     (conn : Nat) (src : Bool) (lo : BitVec 21)
  | recv     (qn : Nat) (dst : Bool) (vd : Nat) (unit : Nat)
  | sel      (mask : BitVec 16) (pol : Bool) (dst : Bool) (vd : Nat) (unit : Nat)
  | wait     (obj : Nat) (thr : Nat) (mode : Bool)
  | signal   (obj : Nat) (inc : Nat)
  | couple   (conn : Nat)
  | uncouple (conn : Nat)
deriving DecidableEq, Repr

/-- An entry of the X issue queue (R48); `sent` marks a wait whose request has left. -/
structure XEntry where
  op   : XOp
  sent : Bool
  org  : Origin
deriving DecidableEq, Repr

/-- A record of the coupling store (R155), the receive end that admitted it (R154), and the last SEQ accepted (R313). -/
structure Coupling where
  src   : Nat
  entry : Nat
  gen   : Nat
  queue : Nat
  via   : Nat
  last  : Option Nat
deriving DecidableEq, Repr

/-- A contribution accepted and not yet folded: the channel cycle in which it entered, whether it took a pending buffer. -/
structure Contrib where
  entered  : Nat
  buffered : Bool
  msg      : Msg
deriving DecidableEq, Repr

/-- A hopper slot (R166-R168): the round expected, the sender indices seen, the contributions waiting, the index whose turn it is and
its units folded, the running sum, the cycle of the last fold, the digests by index. -/
structure HSlot where
  expect : Nat
  seen   : List Nat
  wait   : List Contrib
  folded : Nat
  units  : Nat
  sum    : List Byte
  ready  : Option Nat
  digs   : List (Nat × Nat)
deriving DecidableEq, Repr

/-- A receive queue: the messages accepted with the channel cycle in which each entered, oldest first; the hopper slots of a hopper
queue and the one read next; closed by the controller (R53); the slot a receive reads and the schedule cycle of that read (R162). -/
structure Queue where
  msgs   : List (Nat × Msg)
  slots  : Tab HSlot
  shut   : Bool
  next   : Nat
  reading : Option (Nat × Nat)
deriving DecidableEq, Repr

/-- The copies taken at a step row (R254): step snapshot, ring state, message-unit copy, cycle count, replica digest. -/
structure Snapshot where
  step   : Nat
  g      : Tab Word
  loops  : Tab Loop
  skips  : List Skip
  pc     : Nat
  ecr    : Tab Word
  rings  : Tab Ring
  conns  : Tab Conn
  coupl  : List Coupling
  rounds : Tab (Tab Nat)
  nexts  : Tab Nat
  sched  : Nat
  rdig   : Nat
  mapAt  : Nat
deriving DecidableEq, Repr

/-- A step-map entry (Table 11.6); the entry of the task start has no step row. -/
structure StepEntry where
  row   : Option Nat
  first : Nat
  last  : Nat
  held  : Nat
deriving DecidableEq, Repr

/-- A held-region record (Table 11.7). -/
structure HeldRec where
  set    : Nat
  kind   : Nat
  parity : Nat
  addr   : Nat
  count  : Nat
deriving DecidableEq, Repr

/-- How far a core's position is seized (Table 12.6): not at all; fenced; seized, its object homes on their way; released, at its spare or
the fallback home. -/
inductive Grip where
  | free | fenced | seized | released
deriving DecidableEq, Repr

/-- A core with its task (R30): `pin` is P of R242 and `pins` what each step begun pins, `blocks` the chunk that each ring block holds,
`toLaunch` the step whose launch the core holds for (R226), `doneAt` the cycle count through its done row once that has issued (R282),
`dumped` the copy a seize took of its message state (R366), `xWait` a strict receive that executed and for whose message the channel
brakes (R162), `rxDie` and `rxFree` the channel cycles from which its store can take units of the die and of other senders (R159). -/
structure Core where
  status   : CoreStatus
  job      : Nat
  task     : Nat
  base     : Nat
  bound    : Nat
  profile  : Nat
  start    : Nat
  pc       : Nat
  pin      : Nat
  pins     : List (Nat × Nat)
  ring     : Tab (BitVec 256)
  blocks   : Tab Nat
  stepMap  : List StepEntry
  held     : List HeldRec
  curMap   : Nat
  step     : Nat
  toLaunch : Option Nat
  doneAt   : Option Nat
  g        : Tab Word
  loops    : Tab Loop
  skips    : List Skip
  sched    : Nat
  launchAt : Nat
  hiStep   : Word
  hiFt     : Word
  hiSched  : Word
  dmem     : Mem
  ecr      : Tab Word
  halt     : Option HaltRec
  pendHalt : Option HaltRec
  v        : Tab (List Word)
  groups   : Tab Group
  bcast    : List Byte
  laneOp   : List Byte
  laneSt   : Tab (List Byte)
  chkSt    : Tab (List Nat)
  lPipe    : List LItem
  mPipe    : List MItem
  verdicts : List Verdict
  drains   : List VItem
  vPipe    : List VItem
  busyTill : Nat
  spad     : Mem
  stq      : List EWrite
  segs     : Tab Seg
  rings    : Tab Ring
  nextPut  : Nat
  fill     : List Beat
  fillSeq  : Nat
  egress   : List Egress
  egQueue  : Nat
  putFly   : List PutFly
  conns    : Tab Conn
  xq       : List XEntry
  xLast    : Option Nat
  xHold    : Nat
  xRan     : Nat
  xHeld    : Bool
  xWait    : Option XEntry
  sends    : Tab Origin
  queues   : Tab Queue
  rxFree   : Nat
  rxDie    : Nat
  coupl    : List Coupling
  snaps    : List Snapshot
  rdig     : Nat
  failGen  : Option (Nat × Nat)
  stepFlags : Word
  dumped   : List (List Byte)
  grip     : Grip
deriving DecidableEq, Repr

/-! ### The channel -/

/-- CH_STATE (Table 16.8), and the power-down in which the channel holds nothing (R373). -/
inductive ChState where
  | isolated | resetting | reloading | serving
deriving DecidableEq, Repr

/-- What a brake cause waits for (Table 10.3). -/
inductive Cond where
  | landed  (core ring slot : Nat)
  | remote  (core ring slot : Nat)
  | putsDone (core ring : Nat)
  | egress  (core : Nat)
  | cycles  (left : Nat)
  | message (core qn : Nat)
deriving DecidableEq, Repr

/-- A brake cause raised: its code, the core and ring it is logged with, what it waits for. -/
structure Cause where
  code : Nat
  core : Nat
  ring : Nat
  cond : Cond
deriving DecidableEq, Repr

/-- The brake of a channel (R228, R231): the running episode and what its log entry will say (Table 10.7). -/
structure Brake where
  isOn   : Bool
  len    : Nat
  causes : List Cause
  first  : Cause
  ft     : Nat
  sched  : Nat
  mask   : Nat
  gapCnt : Nat
deriving DecidableEq, Repr

/-- A Fabric Address Map region with VALID = 1 (Table 9.5). -/
structure Region where
  job    : Nat
  psz    : Nat
  base   : Nat
  npages : Nat
  first  : Nat
  rfirst : Nat
  rv     : Bool
deriving DecidableEq, Repr

/-- A staged map write (R213); it stands beside the running job that it waits for. -/
inductive Staged where
  | region (n : Nat) (raw : BitVec 128)
  | entry  (n : Nat) (raw : BitVec 64)
deriving DecidableEq, Repr

/-- A synchronisation object (R170): counter, granted job, value at the job's first launch, copy at the last launch, and the
control-node signals since then, in arrival order (R175). -/
structure SyncObj where
  ctr    : Nat
  job    : Option Nat
  first  : Option Nat
  copy   : Nat
  signals : List Nat
deriving DecidableEq, Repr

/-- What travels to an object's home or back (R172). -/
inductive SyncMsg where
  | signal (inc : Nat)
  | wait   (thr : Nat) (mode : Bool)
  | free
deriving DecidableEq, Repr

/-- A synchronisation item in transit: due in channel cycles. `core` is the signaller or waiter. -/
structure SyncFly where
  due  : Nat
  obj  : Nat
  core : Nat
  kind : SyncMsg
  org  : Origin
deriving DecidableEq, Repr

/-- A message in transit to a core of this channel, due in channel cycles; `same` when it left a core of this channel; `enters` is the
cycle in which its last unit enters the store, once its turn there is fixed (R159). -/
structure MsgFly where
  due  : Nat
  same : Bool
  enters : Option Nat
  msg  : Msg
deriving DecidableEq, Repr

/-- A remote read in transit (R148): performed at the source in schedule cycle `at`, landing at the reader; its place in the order of issue. -/
structure RemoteFly where
  at_    : Nat
  order  : Nat
  reader : Nat
  source : Nat
  unit   : Nat
  ring   : Nat
  slot   : Nat
  seq    : Nat
  org    : Origin
deriving DecidableEq, Repr

/-- An srel notice of a multicast member on its way to the lead (R149). -/
structure SrelFly where
  due    : Nat
  lead   : Nat
  ring   : Nat
  slot   : Nat
  member : Nat
deriving DecidableEq, Repr

/-- A siding entry (R255): job, step, core and instruction, bytes, and where it goes: a durable put (fabric address, homes) or a message
to the control node. -/
structure Siding where
  job   : Nat
  step  : Nat
  core  : Nat
  org   : Origin
  faddr : Nat
  dests : List Target
  msg   : Option Msg
  data  : List Byte
deriving DecidableEq, Repr

/-- A read or write of another home that waits for its answer (R312): first TAG, who asked (a core, or a data frame's CSEQ and job), the
cores whose slot takes it, the step whose siding entry a write releases, the ring slot and landing order of a read or the number of a
put, when it was asked, its requests and the parts answered, its home and the replica kept in reserve (R210); and the input entries, by
channel, that a data frame's acknowledgement makes (R283). -/
structure Request where
  tag    : Nat
  core   : Option Nat
  takers : List Nat
  ring   : Nat
  slot   : Nat
  seq    : Nat
  order  : Nat
  write  : Bool
  cseq   : Nat
  rel    : Option Nat
  job    : Nat
  asked  : Nat
  len    : Nat
  parts  : Nat
  got    : List (Nat × List Byte)
  home   : Target
  alt    : Option Target
  notes  : List (Nat × List Byte)
  org    : Origin
deriving DecidableEq, Repr

/-- A fault signature with the operands kept beside it (R274). -/
structure FSig where
  bytes   : List Byte
  pattern : List Byte
deriving DecidableEq, Repr

/-- Where a revoke stands in a channel (Table 12.3). -/
inductive RevPhase where
  | draining | shunting | holding | limited | lost
deriving DecidableEq, Repr

/-- A revoke acted on (R263). `shunts` are the logical cores whose positions it names; `copies` gives the channel cycle at which each
position's copy is complete (R269). -/
structure Revoke where
  step   : Nat
  gen    : Nat
  time   : Nat
  phase  : RevPhase
  shunts : List Nat
  copies : List (Nat × Nat)
deriving DecidableEq, Repr

/-- A commit in progress (R259): its step, whether the hub has accepted its record, and that record's SEQ. -/
structure Commit where
  step     : Nat
  accepted : Bool
  seq      : Nat
deriving DecidableEq, Repr

/-- A job in one channel: whether it has tasks here, the step running (none before the first launch); how many steps this channel has
sent CLEAR for, has received COMMIT for, has committed; the commits in progress; the revoke generation of the step, how many it acted
on, the revoke in progress; a revoke that came before the channel released its step (step, generation, count; R266); the step and count
handed over for its next launch, whether the count passed with the step not ready; and what its STEP record needs (Table 13.3): launch
count, lag, CH_BRAKE_CYCLES at launch, signatures, input entries by step, the step's and the cumulative replica digest with that before
the step's clearance, the step-append entries written. -/
structure JobCh where
  placed   : Bool
  step     : Option Nat
  sentClear : Nat
  gotCommit : Nat
  committed : Nat
  commits  : List Commit
  gen      : Nat
  acted    : Nat
  revoke   : Option Revoke
  early    : Option (Nat × Nat × Nat)
  overflow : Bool
  launchFor : Option (Nat × Nat)
  missed   : Bool
  ftLaunch : Nat
  lag      : Nat
  brakeAt  : Nat
  fsigs    : Nat
  inputs   : List (Nat × List Byte)
  stepDig  : Nat
  cumDig   : Nat
  digWas   : Nat
  appends  : List Nat
deriving DecidableEq, Repr

/-- A link control packet awaiting its LACK (R314). -/
structure LctlOut where
  id    : Nat
  op    : Nat
  body  : Lctl
  ddev  : Nat
  dch   : Nat
  sent  : Nat
  tries : Nat
deriving DecidableEq, Repr

/-- A seize in progress (Table 12.6): the position, the core it carries, the step reached. -/
structure Seize where
  pos  : Nat
  core : Option Nat
deriving DecidableEq, Repr

/-- Position states of the cluster map (R280). -/
inductive PosSt where
  | inUse | spareFree | failed | inspecting | unavailable
deriving DecidableEq, Repr

/-- An inspection window (R276): position and what it was before, times, package, the next record, the Fabric Time at which its pattern
could start, and the run so far. -/
structure Insp where
  pos    : Nat
  was    : PosSt
  start  : Nat
  stop   : Nat
  pkg    : Nat
  open_  : Bool
  next   : Nat
  began  : Nat
  run    : Nat
  failed : Nat
  firstBad : Option Nat
deriving DecidableEq, Repr

/-- The state of a port (Table 14.9). -/
inductive PortSt where
  | disabled | shutdown | restarting | down | training | up | fault
deriving DecidableEq, Repr

/-- A DATA flit kept for replay (R310): SEQ, lane, whether it begins a packet, its 232 payload bytes, how often it was replayed (R318). -/
structure DataFlit where
  seq     : Nat
  vl      : Nat
  isFirst : Bool
  pay     : List Byte
  times   : Nat
deriving DecidableEq, Repr

/-- A packet waiting at a port or under way (R311, R322): its lane, its header and body, the flits of it already sent, the channel cycle
in which it stands at the port (R316), the link delay taken off a BARRIER it carries (R314). -/
structure TxPkt where
  vl    : Nat
  bytes : List Byte
  done  : Nat
  at_   : Nat
  cut   : Nat
deriving DecidableEq, Repr

/-- A packet sent whole and not yet acknowledged: lane, header and body, SEQ of its last flit, the link delay taken off (R322). -/
structure SentPkt where
  vl    : Nat
  bytes : List Byte
  last  : Nat
  cut   : Nat
deriving DecidableEq, Repr

/-- An idle symbol that waits for a replay to end (R306, R311): a TIME flit, an ECHO_REQ, an ECHO_RSP with its T1 and T2. -/
inductive Symbol where
  | time
  | echoReq
  | echoRsp (t1 t2 : Nat)
deriving DecidableEq, Repr

/-- A port of a channel, external 0-3 or drawbar 4-7 (R303-R320). `rx` collects the packet arriving on each lane, `tx` holds the
packets waiting, `again` the SEQs under replay, `waits` the idle symbols behind them, `out` the flits sent, `slotAt` the time from which
the next may leave, and `inFly` the flits on their way from the other end of a drawbar port, by channel cycle. -/
structure LinkPort where
  st      : PortSt
  since   : Nat
  txSeq   : Nat
  rxSeq   : Nat
  nak     : Bool
  credits : Tab Nat
  retCred : Tab Nat
  replay  : List DataFlit
  tx      : List TxPkt
  sent    : List SentPkt
  rx      : Tab (List Byte)
  out     : List (List Byte)
  inFly   : List (Nat × List Byte)
  lastAck : Nat
  again   : List Nat
  waits   : List Symbol
  slotAt  : Nat
  vl0Run  : Nat
  lane    : Nat
  echoT1  : Option Nat
  echoAt  : Nat
deriving DecidableEq, Repr

/-- A packet received whole, waiting for the channel to take it (R312): kind, port and contents. -/
structure PktIn where
  kind : Nat
  due  : Nat
  port : Nat
  pkt  : Pkt
deriving DecidableEq, Repr

/-- A channel: one compute die with its memory and links (R17). `ftEnd` is its Fabric Time at the end of the previous cycle (R223). -/
structure Channel where
  st        : ChState
  req       : Nat
  heldReq   : Nat
  transAt   : Nat
  cycles    : Nat
  sched     : Nat
  ft        : Nat
  ftEnd     : Nat
  phase     : Nat
  mhz       : Nat
  oppReq    : Option (Nat × Nat)
  stretch   : List Nat
  wander    : Nat
  ftState   : Nat
  ftLocks   : Nat
  source    : Option Nat
  slew      : Int
  brake     : Brake
  brakeLog  : List (BitVec 256)
  cores     : Tab Core
  gddr      : Mem
  selfRef   : Bool
  refIdle   : Nat
  refreshes : Nat
  cxl       : Mem
  regions   : Tab Region
  famMap    : Tab (BitVec 64)
  staged    : List (Nat × Staged)
  objs      : Tab SyncObj
  waits     : List SyncFly
  syncFly   : List SyncFly
  frames    : List (Nat × Nat × Nat)
  dump      : List (List Byte)
  msgFly    : List MsgFly
  remotes   : List RemoteFly
  srels     : List SrelFly
  siding    : List Siding
  sideUsed  : Nat
  reqs      : List Request
  nextTag   : Nat
  fsigs     : List FSig
  prevSig   : BitVec 256
  phys      : Tab Nat
  posSt     : Tab PosSt
  posFail   : Tab Nat
  posClean  : Tab Bool
  jobs      : Tab JobCh
  lctls     : List LctlOut
  nextId    : Nat
  seenIds   : List (Nat × Nat × Nat)
  seize     : Option Seize
  insps     : List Insp
  inspNext  : Tab Nat
  ports     : Tab LinkPort
  routes    : Tab (BitVec 32)
  cutOff    : List (Nat × Nat)
  seenTags  : List (Nat × Nat)
  pktIn     : List PktIn
  inspRes   : List Byte
deriving DecidableEq, Repr

/-! ### The hub -/

/-- MOD_STATE (Table 16.6), with Off (R388). -/
inductive ModSt where
  | off | standby | ready | serving
deriving DecidableEq, Repr

/-- JOB_STATE (Table 11.13). -/
inductive JobSt where
  | free | receiving | loaded | running | ended | rejected
deriving DecidableEq, Repr

/-- A section-table entry (Table 11.2). -/
structure Sec where
  type   : Nat
  target : Nat
  offset : Nat
  length : Nat
  aux    : Nat
  hash   : BitVec 256
deriving DecidableEq, Repr

/-- A seed slot of a loaded image (R249): mode, value, whether a value is there. -/
structure Seed where
  mode  : Nat
  value : BitVec 64
  set   : Bool
deriving DecidableEq, Repr

/-- A job slot of the module (R238). -/
structure Job where
  st       : JobSt
  place    : Tab (List Byte)
  latched  : List (Nat × List Byte)
  manifest : List Byte
  hdrOk    : Bool
  accepted : Bool
  secs     : List Sec
  bodies   : Tab (List Byte)
  secDone  : List Nat
  chunks   : List (Nat × Nat)
  rows     : Tab (List (BitVec 256))
  bulk     : Tab (List Byte)
  seeds    : Tab Seed
  tasks    : List (Nat × Nat)
  lead     : Nat × Nat
  chans    : List (Nat × Nat)
  profile  : Nat
  opceil   : Nat
  debug    : Bool
  launched : Bool
  launch   : Nat
  barrier  : Option Nat
  relWait  : Bool
  cleared  : List (Nat × Nat × Nat × Nat)
  leadStep : Nat
  settings : List Byte
  stopped  : Option Nat
  released : Nat
deriving DecidableEq, Repr

/-- BAY_STATE (Table 13.10). -/
inductive BaySt where
  | empty | identifying | active | refused | ejecting | ejected | full | linkFault
deriving DecidableEq, Repr

/-- A cartridge command that waits for its response (R295): TAG, code, ARG, payload, when it was sent. -/
structure BayCmd where
  tag  : Nat
  code : Nat
  arg  : Nat
  pay  : List Byte
  sent : Nat
deriving DecidableEq, Repr

/-- A journal bay (R292-R299). -/
structure Bay where
  st      : BaySt
  ready   : Bool
  serial  : List Byte
  key     : BitVec 512
  cap     : Nat
  written : Nat
  cert    : List Byte
  nonce   : BitVec 256
  receipt : BitVec 512
  cmds    : List BayCmd
  queued  : List BayCmd
  nextTag : Nat
  crcAt   : List Nat
  reads   : List (Nat × Req)
  since   : Nat
  tail    : List Byte
deriving DecidableEq, Repr

/-- A record the journal has chained and not yet made durable (R289): its SEQ and bytes; the channel, job and step of a STEP
record not yet accepted; the APPENDs still to be answered, as 65536 × bay + TAG. -/
structure JRec where
  seq   : Nat
  bytes : List Byte
  step  : Option (Nat × Nat × Nat)
  waits : List Nat
deriving DecidableEq, Repr

/-- A record handed to the hub and not yet chained: type, source, JOBTAG, job, time, body, and the channel, job and step of a
STEP record (R289, Table 13.6). -/
structure JBody where
  type : Nat
  src  : Nat
  tag  : Nat
  job  : Nat
  ft   : Nat
  body : List Byte
  step : Option (Nat × Nat × Nat)
deriving DecidableEq, Repr

/-- Records discarded in a row for one cause, for the GAP that will tell of them (Table 13.5): how many, the STEP records among them, the
times of the first and the last. -/
structure Gap where
  n     : Nat
  steps : Nat
  from_ : Nat
  until_ : Nat
  cause : Nat
deriving DecidableEq, Repr

/-- The state of an Ahnec link (Table 15.1). -/
inductive AhnSt where
  | disabled | shutdown | restarting | dark | training | up
deriving DecidableEq, Repr

/-- A frame of the device: class, CSEQ, operation, STATUS, job, ARG and payload (Table 15.2). -/
structure Frame where
  cls     : Nat
  cseq    : Nat
  op      : Nat
  status  : Nat
  job     : Nat
  arg     : BitVec 64
  payload : List Byte
deriving DecidableEq, Repr

/-- An Ahnec link (R331-R338): the frames sent and not acknowledged, with their LSEQ; when the last of them went out or was
acknowledged, and when an acknowledgement last made progress. -/
structure Ahn where
  st      : AhnSt
  since   : Nat
  txSeq   : Nat
  rxSeq   : Nat
  nak     : Bool
  credits : Tab Nat
  retCred : Tab Nat
  replay  : List (Nat × Frame)
  out     : List (List Byte)
  lastAck : Nat
  progAt  : Nat
deriving DecidableEq, Repr

/-- The journal (R281-R291). -/
structure Journal where
  seq     : Nat
  prev    : BitVec 256
  seg     : Nat
  epoch   : Nat
  isOpen  : Bool
  segRecs : Nat
  segBytes : List Byte
  openAt  : Nat
  segStart : Tab Nat
  held    : List JBody
  pend    : List JRec
  buffer  : List JBody
  bufUsed : Nat
  bufAt   : Nat
  sealing : Bool
  recovering : Bool
  gaps    : List Gap
  receipts : Tab (BitVec 512)
  mirrorN : Nat
  lastWarn : Nat
deriving DecidableEq, Repr

/-- The management port (R369-R372): its addresses, lengths and interrupt enable, the packets that wait for the bus owner, the bytes
that GET commands of I3C returned, in order, the management store, the management program received. -/
structure Mgmt where
  dyn     : Nat
  eid     : Nat
  mrl     : Nat
  mwl     : Nat
  ibi     : Bool
  answers : List (List Byte)
  ccc     : List (List Byte)
  store   : List (List Byte)
  lost    : Nat
  prog    : Mem
  progLen : Nat
deriving DecidableEq, Repr

/-- The throttle's memory (R393): the last 100 powers of 1 ms, how many in a row were at or below 1,850 W, when a step was last taken
down and up, which steps remain, for how many ms every die has been cool, the gap of the power trigger, the thermal gap. -/
structure Throttle where
  powers   : List Nat
  calm     : Nat
  stepAt   : Option Nat
  raiseAt  : Option Nat
  powSteps : Nat
  thmSteps : Nat
  coolFor  : Nat
  gapPow   : Nat
  gapThm   : Bool
deriving DecidableEq, Repr

/-- The hub (R19): module state, dictionary, loader, journal, links, security, management. -/
structure Hub where
  st       : ModSt
  modReq   : Nat
  transAt  : Nat
  cause    : Nat
  time     : Nat
  turn     : List Nat
  uptime   : Nat
  boardPos : Nat
  jobs     : Tab Job
  events   : List (List Byte)
  evLost   : Nat
  out      : List Frame
  ahn      : Tab Ahn
  txCseq   : Tab Nat
  rxCseq   : Tab Nat
  early    : List (Nat × Frame)
  gapAt    : Tab Nat
  inbox    : List Frame
  jnl      : Journal
  bays     : Tab Bay
  bayOut   : List (Nat × List Byte)
  relay    : List (Nat × Nat × Nat × Lctl)
  tpks     : Tab (List Byte)
  hazards  : List (BitVec 128)
  rwsCount : Nat
  nonce    : BitVec 256
  mgmt     : Mgmt
  thr      : Throttle
  energy   : Nat
deriving DecidableEq, Repr

/-- The machine. `dict` holds the written values and counters of the object dictionary, keyed 256 × index + subindex (R352);
`free` counts the free values drawn; `rowStart` is the copy of a core at the start of the cycle while its row word issues (R26). -/
structure State where
  pending  : List Instr
  dict     : Tab Nat
  ch       : Tab Channel
  hub      : Hub
  free     : Nat
  rowStart : Option (CoreId × Core)
deriving DecidableEq, Repr

/-! ### Reset -/

/-- A core with no task (R30; Table 16.9 defaults). -/
def Core.reset : Core :=
  { status := .noTask, job := 0xFFFF, task := 0, base := 0, bound := 0, profile := 0, start := 0, pc := 0, pin := 0, pins := [],
    ring := [], blocks := [], stepMap := [], held := [], curMap := 0, step := 0, toLaunch := none, doneAt := none,
    g := [], loops := [], skips := [], sched := 0,
    launchAt := 0, hiStep := 0, hiFt := 0, hiSched := 0, dmem := [], ecr := [], halt := none, pendHalt := none, v := [],
    groups := [], bcast := [], laneOp := [], laneSt := [], chkSt := [], lPipe := [], mPipe := [], verdicts := [], drains := [],
    vPipe := [], busyTill := 0, spad := [], stq := [], segs := [], rings := [], nextPut := 0, fill := [],
    fillSeq := 0, egress := [], egQueue := 0, putFly := [], conns := [], xq := [], xLast := none, xHold := 0, xRan := 0,
    xHeld := false, xWait := none, sends := [], queues := [],
    rxFree := 0, rxDie := 0, coupl := [], snaps := [], rdig := 0, failGen := none, stepFlags := 0, dumped := [], grip := .free }

/-- No brake (R228). -/
def Brake.reset : Brake :=
  { isOn := false, len := 0, causes := [], first := ⟨0, 0, 0, .cycles 0⟩, ft := 0, sched := 0, mask := 0, gapCnt := 0 }

/-- A job with nothing in the channel. -/
def JobCh.reset : JobCh :=
  { placed := false, step := none, sentClear := 0, gotCommit := 0, committed := 0, commits := [], gen := 0, acted := 0, revoke := none,
    early := none, overflow := false, launchFor := none, missed := false, ftLaunch := 0, lag := 0,
    brakeAt := 0, fsigs := 0, inputs := [], stepDig := 0, cumDig := 0, digWas := 0,
    appends := [] }

/-- A channel as its reset leaves it: CH_STATE Resetting (Table 16.8 default), 850 MHz (Table 10.9), every table empty. -/
def Channel.reset : Channel :=
  { st := .resetting, req := 0, heldReq := 0, transAt := 0, cycles := 0, sched := 0, ft := 0, ftEnd := 0, phase := 0, mhz := 850,
    oppReq := none, stretch := [], wander := 0, ftState := 0, ftLocks := 0, source := none, slew := 0,
    brake := Brake.reset, brakeLog := [], cores := [], gddr := [], selfRef := false, refIdle := 0, refreshes := 0, cxl := [],
    regions := [], famMap := [], staged := [], objs := [], waits := [], syncFly := [], frames := [], dump := [], msgFly := [],
    remotes := [], srels := [], siding := [], sideUsed := 0, reqs := [], nextTag := 0, fsigs := [], prevSig := 0, phys := [],
    posSt := [], posFail := [], posClean := [], jobs := [], lctls := [], nextId := 0, seenIds := [], seize := none, insps := [], inspNext := [],
    ports := [], routes := [], cutOff := [], seenTags := [], pktIn := [], inspRes := [] }

/-- A FREE job slot (R238). -/
def Job.reset : Job :=
  { st := .free, place := [], latched := [], manifest := [], hdrOk := false, accepted := false, secs := [], bodies := [],
    secDone := [], chunks := [], rows := [], bulk := [], seeds := [], tasks := [], lead := (0, 0), chans := [], profile := 0,
    opceil := 850, debug := false, launched := false, launch := 0, barrier := none, relWait := false, cleared := [], leadStep := 0,
    settings := [], stopped := none, released := 0 }

/-- An empty bay (Table 13.10). -/
def Bay.reset : Bay :=
  { st := .empty, ready := false, serial := [], key := 0, cap := 0, written := 0, cert := [], nonce := 0, receipt := 0,
    cmds := [], queued := [], nextTag := 0, crcAt := [], reads := [], since := 0, tail := [] }

/-- An Ahnec link DARK with no credits (Table 15.12, R338). -/
def Ahn.reset : Ahn :=
  { st := .dark, since := 0, txSeq := 0, rxSeq := 0xFFFF, nak := false, credits := [], retCred := [], replay := [],
    out := [], lastAck := 0, progAt := 0 }

/-- A port DOWN (Table 14.14). -/
def LinkPort.reset : LinkPort :=
  { st := .down, since := 0, txSeq := 0, rxSeq := 4095, nak := false, credits := [], retCred := [], replay := [], tx := [],
    sent := [], rx := [], out := [], inFly := [], lastAck := 0, again := [], waits := [], slotAt := 0, vl0Run := 7, lane := 1, echoT1 := none, echoAt := 0 }

/-- The journal before any segment (R288). -/
def Journal.reset : Journal :=
  { seq := 0, prev := 0, seg := 0, epoch := 0, isOpen := false, segRecs := 0, segBytes := [], openAt := 0, segStart := [],
    held := [], pend := [], buffer := [], bufUsed := 0, bufAt := 0, sealing := false, recovering := false, gaps := [], receipts := [], mirrorN := 0,
    lastWarn := 0 }

/-- The management port after auxiliary power-up (R370, Table 17.11). -/
def Mgmt.reset : Mgmt :=
  { dyn := 0, eid := 0, mrl := 256, mwl := 256, ibi := true, answers := [], ccc := [], store := [], lost := 0, prog := [], progLen := 0 }

/-- No throttle (R394). -/
def Throttle.reset : Throttle :=
  { powers := [], calm := 0, stepAt := none, raiseAt := none, powSteps := 0, thmSteps := 0, coolFor := 0, gapPow := 0, gapThm := false }

/-- The hub in Standby (Table 16.6). -/
def Hub.reset : Hub :=
  { st := .standby, modReq := 0, transAt := 0, cause := 0, time := 0, turn := [], uptime := 0, boardPos := 0, jobs := [], events := [],
    evLost := 0, out := [], ahn := [], txCseq := [], rxCseq := [], early := [], gapAt := [], inbox := [],
    jnl := Journal.reset, bays := [], bayOut := [], relay := [], tpks := [], hazards := [], rwsCount := 0, nonce := 0, mgmt := Mgmt.reset,
    thr := Throttle.reset, energy := 0 }

/-- The machine right after reset: Standby, every object at its Default (R355), every table empty, the boot nonce drawn from the
entropy source (Table 18.1). -/
def State.reset : State :=
  { pending := [], dict := [], ch := [], hub := { Hub.reset with nonce := Config.entropy 0 }, free := 1, rowStart := none }

end Sys2Proof.Machine
end

