-- ==== Sys2Proof/Machine/Objects.lean ====
section
/-! DEFINITION. Objects: the object dictionary's tables, row by row (R352-R358; Tables 7.7, 9.8, 10.9, 11.13, 12.11, 13.10, 14.14,
15.12, 16.5-16.9, 17.11): index, successive indices, subindex, successive subindices, type, access, default, range, step.
A channel's objects stand at the index of channel A (Table 16.4). Subindex 0 of each record stands as a row (R352). -/

namespace Sys2Proof.Machine

/-- The types of Table 16.1. -/
inductive OType where
  | bool | u8 | u16 | u32 | u64 | i32 | i64 | f32 | bits16 | bits32 | time64 | str | oct | hash | sig | key
deriving DecidableEq, Repr

/-- The access rights of Table 16.2. -/
inductive Access where
  | con | ro | rw | wo | rwi | rws | mgt
deriving DecidableEq, Repr

/-- A row of an object table. `lo`, `hi` and `mult` are the range the table states; `dflt` is the Default column. -/
structure Obj where
  idx  : Nat
  reps : Nat
  sub  : Nat
  subs : Nat
  type : OType
  acc  : Access
  dflt : Nat
  lo   : Nat
  hi   : Nat
  mult : Nat
deriving DecidableEq, Repr

/-- Bytes of a value of fixed length (Table 16.1); none for STR and OCT. -/
def OType.bytes : OType → Option Nat
  | .bool => some 1
  | .u8 => some 1
  | .u16 => some 2
  | .u32 => some 4
  | .u64 => some 8
  | .i32 => some 4
  | .i64 => some 8
  | .f32 => some 4
  | .bits16 => some 2
  | .bits32 => some 4
  | .time64 => some 8
  | .str => none
  | .oct => none
  | .hash => some 32
  | .sig => some 64
  | .key => some 64

/-- Rows 0x0000 to 0x0121. -/
def objRows1 : List Obj := [
  ⟨0x0000, 1, 0, 1, .u8, .con, 12, 0, 255, 1⟩,
  ⟨0x0000, 1, 1, 1, .str, .con, 0, 0, 0, 1⟩,
  ⟨0x0000, 1, 2, 1, .str, .con, 0, 0, 0, 1⟩,
  ⟨0x0000, 1, 3, 1, .u8, .con, 0, 0, 255, 1⟩,
  ⟨0x0000, 1, 4, 1, .bool, .con, 0, 0, 1, 1⟩,
  ⟨0x0000, 1, 5, 1, .oct, .con, 0, 0, 0, 1⟩,
  ⟨0x0000, 1, 6, 1, .u8, .con, 1, 0, 255, 1⟩,
  ⟨0x0000, 1, 7, 1, .bits16, .con, 0, 0, 65535, 1⟩,
  ⟨0x0000, 1, 8, 1, .hash, .ro, 0, 0, 0, 1⟩,
  ⟨0x0000, 1, 9, 1, .hash, .ro, 0, 0, 0, 1⟩,
  ⟨0x0000, 1, 10, 1, .key, .con, 0, 0, 0, 1⟩,
  ⟨0x0000, 1, 11, 1, .hash, .con, 0, 0, 0, 1⟩,
  ⟨0x0000, 1, 12, 1, .hash, .ro, 0, 0, 0, 1⟩,
  ⟨0x0001, 1, 0, 1, .u8, .con, 4, 0, 255, 1⟩,
  ⟨0x0001, 1, 1, 1, .u8, .con, 4, 0, 255, 1⟩,
  ⟨0x0001, 1, 2, 1, .u16, .con, 512, 0, 65535, 1⟩,
  ⟨0x0001, 1, 3, 1, .u16, .con, 32, 0, 65535, 1⟩,
  ⟨0x0001, 1, 4, 1, .u8, .ro, 0, 0, 255, 1⟩,
  ⟨0x0100, 1, 0, 1, .u8, .con, 4, 0, 255, 1⟩,
  ⟨0x0100, 1, 1, 1, .u16, .rwi, 0, 0, 4095, 1⟩,
  ⟨0x0100, 1, 2, 1, .u32, .ro, 0, 0, 4294967295, 1⟩,
  ⟨0x0100, 1, 3, 1, .u64, .ro, 0, 0, 18446744073709551615, 1⟩,
  ⟨0x0100, 1, 4, 1, .u32, .ro, 0, 0, 4294967295, 1⟩,
  ⟨0x0110, 2, 0, 1, .u8, .con, 8, 0, 255, 1⟩,
  ⟨0x0110, 2, 1, 1, .bool, .rw, 1, 0, 1, 1⟩,
  ⟨0x0110, 2, 2, 1, .u8, .ro, 3, 0, 255, 1⟩,
  ⟨0x0110, 2, 3, 1, .i32, .ro, 0, 0, 4294967295, 1⟩,
  ⟨0x0110, 2, 4, 1, .u32, .ro, 0, 0, 4294967295, 1⟩,
  ⟨0x0110, 2, 5, 1, .u32, .ro, 0, 0, 4294967295, 1⟩,
  ⟨0x0110, 2, 6, 1, .u32, .ro, 0, 0, 4294967295, 1⟩,
  ⟨0x0110, 2, 7, 1, .u64, .ro, 0, 0, 18446744073709551615, 1⟩,
  ⟨0x0110, 2, 8, 1, .oct, .ro, 0, 0, 0, 1⟩,
  ⟨0x0120, 1, 0, 1, .u8, .con, 6, 0, 255, 1⟩,
  ⟨0x0120, 1, 1, 1, .u8, .con, 0, 0, 255, 1⟩,
  ⟨0x0120, 1, 2, 1, .u8, .ro, 0, 0, 255, 1⟩,
  ⟨0x0120, 1, 3, 1, .u8, .ro, 0, 0, 255, 1⟩,
  ⟨0x0120, 1, 4, 1, .u32, .con, 61873, 0, 4294967295, 1⟩,
  ⟨0x0120, 1, 5, 1, .u32, .ro, 0, 0, 4294967295, 1⟩,
  ⟨0x0120, 1, 6, 1, .u32, .ro, 0, 0, 4294967295, 1⟩,
  ⟨0x0121, 1, 0, 1, .u8, .con, 6, 0, 255, 1⟩]

/-- Rows 0x0121 to 0x0300. -/
def objRows2 : List Obj := [
  ⟨0x0121, 1, 1, 1, .u8, .ro, 0, 0, 255, 1⟩,
  ⟨0x0121, 1, 2, 1, .u32, .rw, 0, 0, 4294967295, 4096⟩,
  ⟨0x0121, 1, 3, 1, .oct, .rw, 0, 0, 0, 1⟩,
  ⟨0x0121, 1, 4, 1, .bool, .wo, 0, 0, 1, 1⟩,
  ⟨0x0121, 1, 5, 1, .u8, .ro, 0, 0, 255, 1⟩,
  ⟨0x0121, 1, 6, 1, .u16, .rws, 0, 0, 65535, 1⟩,
  ⟨0x0200, 1, 0, 1, .u8, .con, 5, 0, 255, 1⟩,
  ⟨0x0200, 1, 1, 1, .u8, .ro, 1, 0, 255, 1⟩,
  ⟨0x0200, 1, 2, 1, .u8, .mgt, 0, 1, 2, 1⟩,
  ⟨0x0200, 1, 3, 1, .bool, .mgt, 0, 0, 1, 1⟩,
  ⟨0x0200, 1, 4, 1, .time64, .ro, 0, 0, 18446744073709551615, 1⟩,
  ⟨0x0200, 1, 5, 1, .bits16, .ro, 0, 0, 65535, 1⟩,
  ⟨0x0201, 1, 0, 1, .u8, .con, 8, 0, 255, 1⟩,
  ⟨0x0201, 1, 1, 1, .u32, .ro, 0, 0, 4294967295, 1⟩,
  ⟨0x0201, 1, 2, 1, .u32, .ro, 0, 0, 4294967295, 1⟩,
  ⟨0x0201, 1, 3, 1, .u32, .ro, 0, 0, 4294967295, 1⟩,
  ⟨0x0201, 1, 4, 1, .u32, .ro, 0, 0, 4294967295, 1⟩,
  ⟨0x0201, 1, 5, 1, .u32, .ro, 0, 0, 4294967295, 1⟩,
  ⟨0x0201, 1, 6, 1, .u64, .ro, 0, 0, 18446744073709551615, 1⟩,
  ⟨0x0201, 1, 7, 1, .u32, .ro, 0, 0, 4294967295, 1⟩,
  ⟨0x0201, 1, 8, 1, .u16, .rw, 1750, 400, 1850, 1⟩,
  ⟨0x0202, 1, 0, 1, .u8, .con, 4, 0, 255, 1⟩,
  ⟨0x0202, 1, 1, 4, .u32, .ro, 0, 0, 4294967295, 1⟩,
  ⟨0x0203, 1, 0, 1, .u8, .con, 9, 0, 255, 1⟩,
  ⟨0x0203, 1, 1, 4, .i32, .ro, 0, 0, 4294967295, 1⟩,
  ⟨0x0203, 1, 5, 1, .i32, .ro, 0, 0, 4294967295, 1⟩,
  ⟨0x0203, 1, 6, 1, .i32, .ro, 0, 0, 4294967295, 1⟩,
  ⟨0x0203, 1, 7, 1, .i32, .ro, 0, 0, 4294967295, 1⟩,
  ⟨0x0203, 1, 8, 1, .i32, .ro, 0, 0, 4294967295, 1⟩,
  ⟨0x0203, 1, 9, 1, .i32, .rw, 95000, 60000, 105000, 1⟩,
  ⟨0x0204, 1, 0, 1, .u8, .con, 2, 0, 255, 1⟩,
  ⟨0x0204, 1, 1, 1, .u8, .ro, 0, 0, 255, 1⟩,
  ⟨0x0204, 1, 2, 1, .u32, .ro, 0, 0, 4294967295, 1⟩,
  ⟨0x0300, 1, 0, 1, .u8, .con, 9, 0, 255, 1⟩,
  ⟨0x0300, 1, 1, 1, .u16, .con, 0, 0, 65535, 1⟩,
  ⟨0x0300, 1, 2, 1, .u32, .rw, 0, 0, 4294967295, 1⟩,
  ⟨0x0300, 1, 3, 1, .oct, .ro, 0, 0, 0, 1⟩,
  ⟨0x0300, 1, 4, 1, .hash, .con, 0, 0, 0, 1⟩,
  ⟨0x0300, 1, 5, 1, .key, .con, 0, 0, 0, 1⟩,
  ⟨0x0300, 1, 6, 1, .key, .con, 0, 0, 0, 1⟩]

/-- Rows 0x0300 to 0x0510. -/
def objRows3 : List Obj := [
  ⟨0x0300, 1, 7, 1, .hash, .ro, 0, 0, 0, 1⟩,
  ⟨0x0300, 1, 8, 1, .u64, .ro, 0, 0, 18446744073709551615, 1⟩,
  ⟨0x0300, 1, 9, 1, .bool, .mgt, 0, 0, 1, 1⟩,
  ⟨0x0301, 1, 0, 1, .u8, .con, 4, 0, 255, 1⟩,
  ⟨0x0301, 1, 1, 4, .key, .rws, 0, 0, 0, 1⟩,
  ⟨0x0400, 1, 0, 1, .u8, .con, 14, 0, 255, 1⟩,
  ⟨0x0400, 1, 1, 1, .u8, .rws, 0, 0, 2, 1⟩,
  ⟨0x0400, 1, 2, 1, .u64, .con, 1073741824, 0, 18446744073709551615, 1⟩,
  ⟨0x0400, 1, 3, 1, .u64, .ro, 0, 0, 18446744073709551615, 1⟩,
  ⟨0x0400, 1, 4, 1, .u64, .ro, 0, 0, 18446744073709551615, 1⟩,
  ⟨0x0400, 1, 5, 1, .u32, .ro, 0, 0, 4294967295, 1⟩,
  ⟨0x0400, 1, 6, 1, .u64, .ro, 0, 0, 18446744073709551615, 1⟩,
  ⟨0x0400, 1, 7, 1, .u32, .rw, 4194304, 65536, 67108864, 1⟩,
  ⟨0x0400, 1, 8, 1, .u64, .rw, 1000000000, 1000000, 60000000000, 1⟩,
  ⟨0x0400, 1, 9, 1, .bool, .wo, 0, 0, 1, 1⟩,
  ⟨0x0400, 1, 10, 1, .u32, .rw, 4096, 0, 65536, 1⟩,
  ⟨0x0400, 1, 11, 1, .u64, .ro, 0, 0, 18446744073709551615, 1⟩,
  ⟨0x0400, 1, 12, 1, .hash, .ro, 0, 0, 0, 1⟩,
  ⟨0x0400, 1, 13, 1, .bool, .rw, 0, 0, 1, 1⟩,
  ⟨0x0400, 1, 14, 1, .u32, .ro, 0, 0, 4294967295, 1⟩,
  ⟨0x0401, 2, 0, 1, .u8, .con, 11, 0, 255, 1⟩,
  ⟨0x0401, 2, 1, 1, .u8, .ro, 0, 0, 255, 1⟩,
  ⟨0x0401, 2, 2, 1, .oct, .ro, 0, 0, 0, 1⟩,
  ⟨0x0401, 2, 3, 1, .u64, .ro, 0, 0, 18446744073709551615, 1⟩,
  ⟨0x0401, 2, 4, 1, .u64, .ro, 0, 0, 18446744073709551615, 1⟩,
  ⟨0x0401, 2, 5, 1, .bool, .wo, 0, 0, 1, 1⟩,
  ⟨0x0401, 2, 6, 1, .u32, .rw, 0, 0, 4294967295, 1⟩,
  ⟨0x0401, 2, 7, 1, .oct, .ro, 0, 0, 0, 1⟩,
  ⟨0x0401, 2, 8, 1, .sig, .ro, 0, 0, 0, 1⟩,
  ⟨0x0401, 2, 9, 1, .u32, .ro, 0, 0, 4294967295, 1⟩,
  ⟨0x0401, 2, 10, 1, .u64, .rw, 0, 0, 18446744073709551615, 1⟩,
  ⟨0x0401, 2, 11, 1, .oct, .ro, 0, 0, 0, 1⟩,
  ⟨0x0500, 1, 0, 1, .u8, .con, 3, 0, 255, 1⟩,
  ⟨0x0500, 1, 1, 1, .u8, .ro, 0, 0, 255, 1⟩,
  ⟨0x0500, 1, 2, 1, .u64, .ro, 0, 0, 18446744073709551615, 1⟩,
  ⟨0x0500, 1, 3, 1, .u32, .ro, 0, 0, 4294967295, 1⟩,
  ⟨0x0510, 1, 0, 1, .u8, .con, 5, 0, 255, 1⟩,
  ⟨0x0510, 1, 1, 1, .u8, .rw, 0, 0, 7, 1⟩,
  ⟨0x0510, 1, 2, 1, .u32, .rw, 0, 0, 4294967295, 1⟩,
  ⟨0x0510, 1, 3, 1, .oct, .rw, 0, 0, 0, 1⟩]

/-- Rows 0x0510 to 0x1100. -/
def objRows4 : List Obj := [
  ⟨0x0510, 1, 4, 1, .bool, .wo, 0, 0, 1, 1⟩,
  ⟨0x0510, 1, 5, 1, .u8, .ro, 0, 0, 255, 1⟩,
  ⟨0x0600, 1, 0, 1, .u8, .con, 7, 0, 255, 1⟩,
  ⟨0x0600, 1, 1, 1, .u8, .con, 64, 0, 255, 1⟩,
  ⟨0x0600, 1, 2, 1, .bool, .rws, 0, 0, 1, 1⟩,
  ⟨0x0600, 1, 3, 1, .bool, .rw, 0, 0, 1, 1⟩,
  ⟨0x0600, 1, 4, 1, .u32, .ro, 1048576, 0, 4294967295, 1⟩,
  ⟨0x0600, 1, 5, 1, .u8, .rw, 0, 0, 255, 1⟩,
  ⟨0x0600, 1, 6, 1, .oct, .ro, 0, 0, 0, 1⟩,
  ⟨0x0600, 1, 7, 1, .u32, .ro, 0, 0, 4294967295, 1⟩,
  ⟨0x0640, 64, 0, 1, .u8, .con, 13, 0, 255, 1⟩,
  ⟨0x0640, 64, 1, 1, .u8, .ro, 0, 0, 255, 1⟩,
  ⟨0x0640, 64, 2, 1, .bool, .wo, 0, 0, 1, 1⟩,
  ⟨0x0640, 64, 3, 1, .oct, .ro, 0, 0, 0, 1⟩,
  ⟨0x0640, 64, 4, 1, .hash, .ro, 0, 0, 0, 1⟩,
  ⟨0x0640, 64, 5, 1, .hash, .ro, 0, 0, 0, 1⟩,
  ⟨0x0640, 64, 6, 1, .u32, .rw, 0, 0, 8191, 1⟩,
  ⟨0x0640, 64, 7, 1, .oct, .rw, 0, 0, 0, 1⟩,
  ⟨0x0640, 64, 8, 1, .u8, .rw, 0, 0, 255, 1⟩,
  ⟨0x0640, 64, 9, 1, .u64, .rw, 0, 0, 18446744073709551615, 1⟩,
  ⟨0x0640, 64, 10, 1, .time64, .rw, 0, 0, 18446744073709551615, 1⟩,
  ⟨0x0640, 64, 11, 1, .u64, .ro, 0, 0, 18446744073709551615, 1⟩,
  ⟨0x0640, 64, 12, 1, .bool, .wo, 0, 0, 1, 1⟩,
  ⟨0x0640, 64, 13, 1, .bool, .wo, 0, 0, 1, 1⟩,
  ⟨0x1000, 1, 0, 1, .u8, .con, 8, 0, 255, 1⟩,
  ⟨0x1000, 1, 1, 1, .u8, .con, 0, 0, 255, 1⟩,
  ⟨0x1000, 1, 2, 1, .u8, .ro, 1, 0, 255, 1⟩,
  ⟨0x1000, 1, 3, 1, .u8, .rw, 0, 1, 4, 1⟩,
  ⟨0x1000, 1, 4, 1, .bool, .ro, 1, 0, 1, 1⟩,
  ⟨0x1000, 1, 5, 1, .u64, .ro, 0, 0, 18446744073709551615, 1⟩,
  ⟨0x1000, 1, 6, 1, .u32, .ro, 0, 0, 4294967295, 1⟩,
  ⟨0x1000, 1, 7, 1, .time64, .ro, 0, 0, 18446744073709551615, 1⟩,
  ⟨0x1000, 1, 8, 1, .u8, .ro, 128, 0, 255, 1⟩,
  ⟨0x1100, 1, 0, 1, .u8, .con, 9, 0, 255, 1⟩,
  ⟨0x1100, 1, 1, 1, .u16, .ro, 850, 0, 65535, 1⟩,
  ⟨0x1100, 1, 2, 1, .u16, .rw, 850, 0, 65535, 1⟩,
  ⟨0x1100, 1, 3, 1, .time64, .rw, 0, 0, 18446744073709551615, 1⟩,
  ⟨0x1100, 1, 4, 1, .u16, .ro, 850, 0, 65535, 1⟩,
  ⟨0x1100, 1, 5, 1, .u64, .ro, 0, 0, 18446744073709551615, 1⟩,
  ⟨0x1100, 1, 6, 1, .u64, .ro, 0, 0, 18446744073709551615, 1⟩]

/-- Rows 0x1100 to 0x1300. -/
def objRows5 : List Obj := [
  ⟨0x1100, 1, 7, 1, .u64, .ro, 0, 0, 18446744073709551615, 1⟩,
  ⟨0x1100, 1, 8, 1, .u8, .ro, 0, 0, 255, 1⟩,
  ⟨0x1100, 1, 9, 1, .u16, .ro, 0, 0, 65535, 1⟩,
  ⟨0x1101, 1, 0, 1, .u8, .con, 7, 0, 255, 1⟩,
  ⟨0x1101, 1, 1, 1, .u64, .ro, 0, 0, 18446744073709551615, 1⟩,
  ⟨0x1101, 1, 2, 1, .u64, .ro, 0, 0, 18446744073709551615, 1⟩,
  ⟨0x1101, 1, 3, 1, .u32, .ro, 0, 0, 4294967295, 1⟩,
  ⟨0x1101, 1, 4, 1, .u32, .rw, 1000000, 0, 4294967295, 1⟩,
  ⟨0x1101, 1, 5, 1, .u32, .ro, 0, 0, 4294967295, 1⟩,
  ⟨0x1101, 1, 6, 1, .u8, .rw, 0, 0, 63, 1⟩,
  ⟨0x1101, 1, 7, 1, .oct, .ro, 0, 0, 0, 1⟩,
  ⟨0x1102, 1, 0, 1, .u8, .con, 8, 0, 255, 1⟩,
  ⟨0x1102, 1, 1, 8, .u64, .ro, 0, 0, 18446744073709551615, 1⟩,
  ⟨0x1103, 1, 0, 1, .u8, .con, 8, 0, 255, 1⟩,
  ⟨0x1103, 1, 1, 1, .time64, .ro, 0, 0, 18446744073709551615, 1⟩,
  ⟨0x1103, 1, 2, 1, .u8, .ro, 0, 0, 255, 1⟩,
  ⟨0x1103, 1, 3, 1, .u8, .rw, 0, 0, 5, 1⟩,
  ⟨0x1103, 1, 4, 1, .i32, .ro, 0, 0, 4294967295, 1⟩,
  ⟨0x1103, 1, 5, 1, .u32, .ro, 0, 0, 4294967295, 1⟩,
  ⟨0x1103, 1, 6, 1, .time64, .ro, 0, 0, 18446744073709551615, 1⟩,
  ⟨0x1103, 1, 7, 1, .u32, .ro, 0, 0, 4294967295, 1⟩,
  ⟨0x1103, 1, 8, 1, .bool, .rwi, 0, 0, 1, 1⟩,
  ⟨0x1104, 1, 0, 1, .u8, .con, 2, 0, 255, 1⟩,
  ⟨0x1104, 1, 1, 1, .u32, .ro, 0, 0, 4294967295, 1⟩,
  ⟨0x1104, 1, 2, 1, .u32, .ro, 0, 0, 4294967295, 1⟩,
  ⟨0x1200, 1, 0, 1, .u8, .con, 4, 0, 255, 1⟩,
  ⟨0x1200, 1, 1, 1, .u64, .con, 25769803776, 0, 18446744073709551615, 1⟩,
  ⟨0x1200, 1, 2, 1, .u32, .con, 389120, 0, 4294967295, 1⟩,
  ⟨0x1200, 1, 3, 1, .u32, .ro, 0, 0, 4294967295, 1⟩,
  ⟨0x1200, 1, 4, 1, .u32, .ro, 0, 0, 4294967295, 1⟩,
  ⟨0x1201, 1, 0, 1, .u8, .con, 6, 0, 255, 1⟩,
  ⟨0x1201, 1, 1, 1, .u8, .ro, 0, 0, 255, 1⟩,
  ⟨0x1201, 1, 2, 1, .u8, .ro, 0, 0, 255, 1⟩,
  ⟨0x1201, 1, 3, 1, .u8, .ro, 0, 0, 255, 1⟩,
  ⟨0x1201, 1, 4, 1, .u64, .ro, 0, 0, 18446744073709551615, 1⟩,
  ⟨0x1201, 1, 5, 1, .u32, .ro, 0, 0, 4294967295, 1⟩,
  ⟨0x1201, 1, 6, 1, .bool, .rwi, 1, 0, 1, 1⟩,
  ⟨0x1300, 1, 0, 1, .u8, .con, 4, 0, 255, 1⟩,
  ⟨0x1300, 1, 1, 1, .u32, .con, 524288, 0, 4294967295, 1⟩,
  ⟨0x1300, 1, 2, 1, .u16, .ro, 0, 0, 65535, 1⟩]

/-- Rows 0x1300 to 0x1501. -/
def objRows6 : List Obj := [
  ⟨0x1300, 1, 3, 1, .u16, .ro, 0, 0, 65535, 1⟩,
  ⟨0x1300, 1, 4, 1, .u32, .ro, 0, 0, 4294967295, 1⟩,
  ⟨0x1301, 1, 0, 1, .u8, .con, 64, 0, 255, 1⟩,
  ⟨0x1301, 1, 1, 64, .oct, .rw, 0, 0, 0, 1⟩,
  ⟨0x1302, 1, 0, 1, .u8, .con, 3, 0, 255, 1⟩,
  ⟨0x1302, 1, 1, 1, .u32, .rw, 0, 0, 4294967295, 1⟩,
  ⟨0x1302, 1, 2, 1, .u16, .rw, 512, 1, 512, 1⟩,
  ⟨0x1302, 1, 3, 1, .oct, .rw, 0, 0, 0, 1⟩,
  ⟨0x1303, 1, 0, 1, .u8, .con, 3, 0, 255, 1⟩,
  ⟨0x1303, 1, 1, 1, .u16, .rw, 65535, 0, 65535, 1⟩,
  ⟨0x1303, 1, 2, 1, .u64, .rw, 0, 0, 18446744073709551615, 1⟩,
  ⟨0x1303, 1, 3, 1, .u64, .ro, 0, 0, 18446744073709551615, 1⟩,
  ⟨0x1400, 1, 0, 1, .u8, .con, 5, 0, 255, 1⟩,
  ⟨0x1400, 1, 1, 1, .u16, .rwi, 256, 16, 65535, 1⟩,
  ⟨0x1400, 1, 2, 1, .u16, .rw, 0, 0, 65535, 1⟩,
  ⟨0x1400, 1, 3, 1, .u16, .rw, 1024, 1, 1024, 1⟩,
  ⟨0x1400, 1, 4, 1, .oct, .rw, 0, 0, 0, 1⟩,
  ⟨0x1400, 1, 5, 1, .u32, .ro, 0, 0, 4294967295, 1⟩,
  ⟨0x1410, 8, 0, 1, .u8, .con, 13, 0, 255, 1⟩,
  ⟨0x1410, 8, 1, 1, .bool, .rw, 1, 0, 1, 1⟩,
  ⟨0x1410, 8, 2, 1, .u8, .ro, 3, 0, 255, 1⟩,
  ⟨0x1410, 8, 3, 1, .u32, .ro, 4294967295, 0, 4294967295, 1⟩,
  ⟨0x1410, 8, 4, 1, .u32, .rw, 4294967295, 0, 4294967295, 1⟩,
  ⟨0x1410, 8, 5, 1, .u8, .rwi, 5, 5, 40, 1⟩,
  ⟨0x1410, 8, 6, 1, .u32, .ro, 0, 0, 4294967295, 1⟩,
  ⟨0x1410, 8, 7, 1, .u8, .ro, 255, 0, 255, 1⟩,
  ⟨0x1410, 8, 8, 1, .u64, .ro, 0, 0, 18446744073709551615, 1⟩,
  ⟨0x1410, 8, 9, 1, .u32, .ro, 0, 0, 4294967295, 1⟩,
  ⟨0x1410, 8, 10, 1, .u32, .ro, 0, 0, 4294967295, 1⟩,
  ⟨0x1410, 8, 11, 1, .u32, .ro, 0, 0, 4294967295, 1⟩,
  ⟨0x1410, 8, 12, 1, .u64, .ro, 0, 0, 18446744073709551615, 1⟩,
  ⟨0x1410, 8, 13, 1, .oct, .ro, 0, 0, 0, 1⟩,
  ⟨0x1500, 1, 0, 1, .u8, .con, 3, 0, 255, 1⟩,
  ⟨0x1500, 1, 1, 1, .u16, .con, 4096, 0, 65535, 1⟩,
  ⟨0x1500, 1, 2, 1, .u16, .ro, 0, 0, 65535, 1⟩,
  ⟨0x1500, 1, 3, 1, .u32, .ro, 0, 0, 4294967295, 1⟩,
  ⟨0x1501, 1, 0, 1, .u8, .con, 4, 0, 255, 1⟩,
  ⟨0x1501, 1, 1, 1, .u16, .rw, 0, 0, 4095, 1⟩,
  ⟨0x1501, 1, 2, 1, .u16, .rw, 0, 1, 4096, 1⟩,
  ⟨0x1501, 1, 3, 1, .u16, .rw, 65535, 0, 65535, 1⟩]

/-- Rows 0x1501 to 0x1603. -/
def objRows7 : List Obj := [
  ⟨0x1501, 1, 4, 1, .bool, .wo, 0, 0, 1, 1⟩,
  ⟨0x1502, 1, 0, 1, .u8, .con, 3, 0, 255, 1⟩,
  ⟨0x1502, 1, 1, 1, .u8, .rw, 0, 0, 8, 1⟩,
  ⟨0x1502, 1, 2, 1, .oct, .ro, 0, 0, 0, 1⟩,
  ⟨0x1502, 1, 3, 1, .bool, .wo, 0, 0, 1, 1⟩,
  ⟨0x1503, 1, 0, 1, .u8, .con, 2, 0, 255, 1⟩,
  ⟨0x1503, 1, 1, 1, .u16, .rw, 0, 0, 65535, 1⟩,
  ⟨0x1503, 1, 2, 1, .u32, .ro, 0, 0, 4294967295, 1⟩,
  ⟨0x1510, 32, 0, 1, .u8, .con, 4, 0, 255, 1⟩,
  ⟨0x1510, 32, 1, 1, .u16, .rw, 0, 0, 65535, 1⟩,
  ⟨0x1510, 32, 2, 1, .u32, .rw, 0, 0, 4294967295, 1⟩,
  ⟨0x1510, 32, 3, 1, .bool, .rw, 0, 0, 1, 1⟩,
  ⟨0x1510, 32, 4, 1, .time64, .ro, 0, 0, 18446744073709551615, 1⟩,
  ⟨0x1600, 1, 0, 1, .u8, .con, 11, 0, 255, 1⟩,
  ⟨0x1600, 1, 1, 1, .u8, .rw, 0, 0, 127, 1⟩,
  ⟨0x1600, 1, 2, 1, .u32, .ro, 0, 0, 4294967295, 1⟩,
  ⟨0x1600, 1, 3, 1, .u8, .ro, 0, 0, 255, 1⟩,
  ⟨0x1600, 1, 4, 1, .u16, .ro, 65535, 0, 65535, 1⟩,
  ⟨0x1600, 1, 5, 1, .u64, .ro, 0, 0, 18446744073709551615, 1⟩,
  ⟨0x1600, 1, 6, 1, .u32, .ro, 0, 0, 4294967295, 1⟩,
  ⟨0x1600, 1, 7, 1, .u16, .ro, 0, 0, 65535, 1⟩,
  ⟨0x1600, 1, 8, 1, .u32, .ro, 0, 0, 4294967295, 1⟩,
  ⟨0x1600, 1, 9, 1, .u32, .ro, 0, 0, 4294967295, 1⟩,
  ⟨0x1600, 1, 10, 1, .u64, .ro, 0, 0, 18446744073709551615, 1⟩,
  ⟨0x1600, 1, 11, 1, .u8, .wo, 0, 0, 255, 1⟩,
  ⟨0x1601, 1, 0, 1, .u8, .con, 4, 0, 255, 1⟩,
  ⟨0x1601, 1, 1, 1, .oct, .ro, 0, 0, 0, 1⟩,
  ⟨0x1601, 1, 2, 1, .oct, .ro, 0, 0, 0, 1⟩,
  ⟨0x1601, 1, 3, 1, .u16, .rw, 0, 0, 1023, 1⟩,
  ⟨0x1601, 1, 4, 1, .u32, .ro, 0, 0, 4294967295, 1⟩,
  ⟨0x1602, 1, 0, 1, .u8, .con, 7, 0, 255, 1⟩,
  ⟨0x1602, 1, 1, 1, .u16, .rw, 0, 0, 65535, 16⟩,
  ⟨0x1602, 1, 2, 1, .u16, .rw, 4096, 512, 4096, 512⟩,
  ⟨0x1602, 1, 3, 1, .oct, .ro, 0, 0, 0, 1⟩,
  ⟨0x1602, 1, 4, 1, .u16, .rw, 0, 0, 65535, 4⟩,
  ⟨0x1602, 1, 5, 1, .oct, .ro, 0, 0, 0, 1⟩,
  ⟨0x1602, 1, 6, 1, .u16, .rw, 0, 0, 65535, 128⟩,
  ⟨0x1602, 1, 7, 1, .oct, .ro, 0, 0, 0, 1⟩,
  ⟨0x1603, 1, 0, 1, .u8, .con, 4, 0, 255, 1⟩,
  ⟨0x1603, 1, 1, 1, .u8, .rw, 0, 0, 31, 1⟩]

/-- Rows 0x1603 to 0x1706. -/
def objRows8 : List Obj := [
  ⟨0x1603, 1, 2, 1, .oct, .ro, 0, 0, 0, 1⟩,
  ⟨0x1603, 1, 3, 1, .u8, .rw, 0, 0, 20, 1⟩,
  ⟨0x1603, 1, 4, 1, .oct, .ro, 0, 0, 0, 1⟩,
  ⟨0x1700, 1, 0, 1, .u8, .con, 10, 0, 255, 1⟩,
  ⟨0x1700, 1, 1, 1, .u32, .ro, 0, 0, 4294967295, 1⟩,
  ⟨0x1700, 1, 2, 1, .u32, .ro, 0, 0, 4294967295, 1⟩,
  ⟨0x1700, 1, 3, 1, .u32, .ro, 0, 0, 4294967295, 1⟩,
  ⟨0x1700, 1, 4, 1, .u32, .ro, 0, 0, 4294967295, 1⟩,
  ⟨0x1700, 1, 5, 1, .u8, .rw, 3, 1, 255, 1⟩,
  ⟨0x1700, 1, 6, 1, .u32, .rw, 20000, 5000, 1000000, 1⟩,
  ⟨0x1700, 1, 7, 1, .time64, .rw, 86400000000000, 0, 18446744073709551615, 1⟩,
  ⟨0x1700, 1, 8, 1, .u32, .con, 16777216, 0, 4294967295, 1⟩,
  ⟨0x1700, 1, 9, 1, .u32, .ro, 0, 0, 4294967295, 1⟩,
  ⟨0x1700, 1, 10, 1, .u32, .ro, 0, 0, 4294967295, 1⟩,
  ⟨0x1701, 1, 0, 1, .u8, .con, 2, 0, 255, 1⟩,
  ⟨0x1701, 1, 1, 1, .u16, .rw, 65535, 0, 65535, 1⟩,
  ⟨0x1701, 1, 2, 1, .bool, .wo, 0, 0, 1, 1⟩,
  ⟨0x1702, 1, 0, 1, .u8, .con, 8, 0, 255, 1⟩,
  ⟨0x1702, 1, 1, 8, .oct, .ro, 0, 0, 0, 1⟩,
  ⟨0x1703, 1, 0, 1, .u8, .con, 2, 0, 255, 1⟩,
  ⟨0x1703, 1, 1, 1, .u8, .rw, 255, 0, 255, 1⟩,
  ⟨0x1703, 1, 2, 1, .u8, .rw, 255, 0, 255, 1⟩,
  ⟨0x1704, 1, 0, 1, .u8, .con, 4, 0, 255, 1⟩,
  ⟨0x1704, 1, 1, 1, .u8, .rw, 0, 0, 63, 1⟩,
  ⟨0x1704, 1, 2, 1, .oct, .ro, 0, 0, 0, 1⟩,
  ⟨0x1704, 1, 3, 1, .oct, .ro, 0, 0, 0, 1⟩,
  ⟨0x1704, 1, 4, 1, .u32, .ro, 0, 0, 4294967295, 1⟩,
  ⟨0x1705, 1, 0, 1, .u8, .con, 6, 0, 255, 1⟩,
  ⟨0x1705, 1, 1, 1, .u8, .rw, 255, 0, 255, 1⟩,
  ⟨0x1705, 1, 2, 1, .time64, .rw, 0, 0, 18446744073709551615, 1⟩,
  ⟨0x1705, 1, 3, 1, .time64, .rw, 0, 0, 18446744073709551615, 1⟩,
  ⟨0x1705, 1, 4, 1, .u8, .rw, 0, 0, 7, 1⟩,
  ⟨0x1705, 1, 5, 1, .bool, .wo, 0, 0, 1, 1⟩,
  ⟨0x1705, 1, 6, 1, .oct, .ro, 0, 0, 0, 1⟩,
  ⟨0x1706, 1, 0, 1, .u8, .con, 5, 0, 255, 1⟩,
  ⟨0x1706, 1, 1, 1, .u64, .rw, 0, 0, 18446744073709551615, 1⟩,
  ⟨0x1706, 1, 2, 1, .u16, .rw, 0, 0, 65535, 1⟩,
  ⟨0x1706, 1, 3, 1, .u16, .rw, 65535, 0, 65535, 1⟩,
  ⟨0x1706, 1, 4, 1, .u64, .ro, 0, 0, 18446744073709551615, 1⟩,
  ⟨0x1706, 1, 5, 1, .u64, .ro, 0, 0, 18446744073709551615, 1⟩]

/-- Every row. -/
def objTable : List Obj :=
  objRows1 ++ objRows2 ++ objRows3 ++ objRows4 ++ objRows5 ++ objRows6 ++ objRows7 ++ objRows8

/-- The channel whose objects an index names, and the index of the same object in channel A (R358). -/
def objNorm (idx : Nat) : Nat :=
  if 0x1000 ≤ idx ∧ idx < 0x5000 then 0x1000 + idx % 0x1000 else idx

/-- The row of an object, by index and subindex. -/
def objFind (idx sub : Nat) : Option Obj :=
  objTable.find? fun o => decide (o.idx ≤ objNorm idx) && decide (objNorm idx < o.idx + o.reps) &&
    decide (o.sub ≤ sub) && decide (sub < o.sub + o.subs)

/-- An index the tables assign (R357). -/
def objIndex (idx : Nat) : Bool :=
  objTable.any fun o => decide (o.idx ≤ objNorm idx) && decide (objNorm idx < o.idx + o.reps)

/-- The Default of an object (R355); CH_LETTER is the channel's number (Table 16.8). -/
def objDefault (idx sub : Nat) : Nat :=
  if objNorm idx = 0x1000 ∧ sub = 1 then idx / 0x1000 - 1
  else match objFind idx sub with
    | some o => o.dflt
    | none => 0

end Sys2Proof.Machine
end

