-- ==== Sys2Proof/Machine/Ops.lean ====
section
/-! DEFINITION. Ops: the named operations over tables, memories and bytes, over channels and cores, over the dictionary's stored
values, and the events of the module (Tables 15.7, 15.8). -/

namespace Sys2Proof.Machine

/-! ### Tables -/

/-- The entry of a key. -/
def tabFind {α : Type} (t : Tab α) (k : Nat) : Option α :=
  List.lookup k t

/-- The entry of a key, the reader's default where none is listed. -/
def tabGet {α : Type} (t : Tab α) (d : α) (k : Nat) : α :=
  (tabFind t k).getD d

/-- The table with one entry written, in rising key. -/
def tabSet {α : Type} : Tab α → Nat → α → Tab α
  | [], k, v => [(k, v)]
  | (k', v') :: r, k, v =>
    if k < k' then (k, v) :: (k', v') :: r
    else if k = k' then (k, v) :: r
    else (k', v') :: tabSet r k v

/-- The table without one key. -/
def tabDel {α : Type} (t : Tab α) (k : Nat) : Tab α :=
  t.filter fun e => e.1 != k

/-- One entry changed. -/
def tabUpd {α : Type} (t : Tab α) (d : α) (k : Nat) (f : α → α) : Tab α :=
  tabSet t k (f (tabGet t d k))

/-- Every listed entry changed. -/
def tabMap {α β : Type} (t : Tab α) (f : Nat → α → β) : Tab β :=
  t.map fun e => (e.1, f e.1 e.2)

/-- The least key from a start that is not listed. -/
def tabFree {α : Type} (t : Tab α) (start : Nat) : Nat :=
  ((List.range (t.length + 1)).find? fun n => (tabFind t (start + n)).isNone).getD 0 + start

/-! ### Memories (canonical: rising address, no zero byte listed) -/

/-- The canonical form of a memory. -/
def Mem.wf (m : Mem) : Bool :=
  m.Pairwise (fun a b => a.1 < b.1) && m.all fun c => c.2 != 0#8

/-- One byte; an unlisted address reads zero (DESIGN CHOICE: assumption log, 5). -/
def memGet (m : Mem) (a : Nat) : Byte :=
  (List.lookup a m).getD 0

/-- The cells that bytes from an address make. -/
def memCells : Nat → List Byte → Mem
  | _, [] => []
  | a, b :: bs => if b = 0#8 then memCells (a + 1) bs else (a, b) :: memCells (a + 1) bs

/-- Bytes written from an address. -/
def memWrite (m : Mem) (a : Nat) (bs : List Byte) : Mem :=
  m.filter (fun c => decide (c.1 < a)) ++ memCells a bs ++ m.filter (fun c => decide (a + bs.length ≤ c.1))

/-- `n` bytes from an address out of cells that begin at or past it. -/
def memTake (m : Mem) : Nat → Nat → List Byte
  | 0, _ => []
  | n + 1, a =>
    match m with
    | [] => List.replicate (n + 1) 0
    | c :: r => if c.1 = a then c.2 :: memTake r n (a + 1) else 0 :: memTake (c :: r) n (a + 1)

/-- `n` bytes from an address. -/
def memRead (m : Mem) (a n : Nat) : List Byte :=
  memTake (m.filter fun c => decide (a ≤ c.1 ∧ c.1 < a + n)) n a

/-- A range set to zero. -/
def memZero (m : Mem) (a n : Nat) : Mem :=
  m.filter fun c => decide (c.1 < a ∨ a + n ≤ c.1)

/-! ### Bytes -/

/-- The number that bytes spell, least significant first. -/
def leNat : List Byte → Nat
  | [] => 0
  | b :: bs => b.toNat + 256 * leNat bs

/-- `n` bytes of a number, least significant first. -/
def leBytes : Nat → Nat → List Byte
  | 0, _ => []
  | n + 1, v => BitVec.ofNat 8 v :: leBytes n (v / 256)

/-- `n` bytes of a number, most significant first. -/
def beBytes (n v : Nat) : List Byte :=
  (leBytes n v).reverse

/-- The number that bytes spell, most significant first. -/
def beNat (bs : List Byte) : Nat :=
  bs.foldl (fun a b => a * 256 + b.toNat) 0

/-- Bytes `o` to `o + n - 1`, short where the list ends. -/
def slice (bs : List Byte) (o n : Nat) : List Byte :=
  (bs.drop o).take n

/-- The little-endian field of `n` bytes at an offset. -/
def fld (bs : List Byte) (o n : Nat) : Nat :=
  leNat (slice bs o n)

/-- Zero bytes. -/
def zeros (n : Nat) : List Byte :=
  List.replicate n 0

/-- Bytes made exactly `n` long, zeros at the end. -/
def padTo (n : Nat) (bs : List Byte) : List Byte :=
  (bs ++ zeros n).take n

/-- Every byte is zero. -/
def allZero (bs : List Byte) : Bool :=
  bs.all fun b => b == 0

/-- Bytes `o` to `o + n - 1` are zero. -/
def zeroAt (bs : List Byte) (o n : Nat) : Bool :=
  allZero (slice bs o n)

/-- A bit of a number. -/
def bit (v n : Nat) : Bool :=
  v.testBit n

/-- Bits `lo` to `lo + n - 1` of a number. -/
def bits (v lo n : Nat) : Nat :=
  v / 2 ^ lo % 2 ^ n

/-- A truth as 0 or 1. -/
def b2n (b : Bool) : Nat :=
  if b then 1 else 0

/-- A list cut into pieces of `n`, at most `fuel` of them. -/
def chunksOf {α : Type} (n : Nat) : Nat → List α → List (List α)
  | 0, _ => []
  | _, [] => []
  | fuel + 1, l => l.take n :: chunksOf n fuel (l.drop n)

/-- The words of 512 bytes of a vector register. -/
def wordsOf (bs : List Byte) : List Word :=
  (List.range 128).map fun i => BitVec.ofNat 32 (fld bs (4 * i) 4)

/-- The bytes of a vector register. -/
def bytesOf (ws : List Word) : List Byte :=
  ws.flatMap fun w => leBytes 4 w.toNat

/-! ### Digests (R169) -/

/-- P of R169. -/
def digP : Nat := 2 ^ 61 - 1

/-- Z of R169. -/
def digZ : Nat := 0x0B5E71C39A4D2F07

/-- The 64-bit words of a payload, at most `n` of them. -/
def words64 : Nat → List Byte → List Nat
  | 0, _ => []
  | _, [] => []
  | n + 1, bs => leNat (bs.take 8) :: words64 n (bs.drop 8)

/-- One more digest or word folded into a running one. -/
def digFold (h d : Nat) : Nat :=
  (h * digZ + d % digP) % digP

/-- msg_digest of R169, over a payload of whole 512-byte units. -/
def msgDigest (bs : List Byte) : Nat :=
  (bs.length / 512 - 1) * 2 ^ 61 + (words64 (bs.length / 8) bs).foldl digFold 0

/-- slot_digest of R169. -/
def slotDigest (ds : List Nat) : Nat :=
  ds.foldl digFold 0

/-! ### Channels and cores -/

/-- A channel. -/
def getCh (s : State) (n : Nat) : Channel :=
  tabGet s.ch Channel.reset n

/-- A channel changed. -/
def updCh (s : State) (n : Nat) (f : Channel → Channel) : State :=
  { s with ch := tabUpd s.ch Channel.reset n f }

/-- A logical core of a channel. -/
def coreOf (k : Channel) (n : Nat) : Core :=
  tabGet k.cores Core.reset n

/-- A logical core of a channel changed. -/
def updCoreOf (k : Channel) (n : Nat) (f : Core → Core) : Channel :=
  { k with cores := tabUpd k.cores Core.reset n f }

/-- The channel of a core (Table 2.7). -/
def chOf (c : CoreId) : Nat :=
  c.toNat / 128

/-- A core's number in its channel: cluster × 16 + core (Table 2.7). -/
def inCh (c : CoreId) : Nat :=
  c.toNat % 128

/-- The core a channel and a number name. -/
def mkCore (ch n : Nat) : CoreId :=
  BitVec.ofNat 9 (128 * ch + n)

/-- A core as it stands. -/
def getCore (s : State) (c : CoreId) : Core :=
  coreOf (getCh s (chOf c)) (inCh c)

/-- A core changed. -/
def updCore (s : State) (c : CoreId) (f : Core → Core) : State :=
  updCh s (chOf c) fun k => updCoreOf k (inCh c) f

/-- A core at the start of the cycle: what every slot of a row word reads (R26). -/
def startCore (s : State) (c : CoreId) : Core :=
  match s.rowStart with
  | some (c', k) => if c' = c then k else getCore s c
  | none => getCore s c

/-- The cycle now to come is braked: an episode raised in an earlier schedule cycle runs (R228). -/
def brakeNow (k : Channel) : Bool :=
  k.brake.isOn && decide (k.brake.sched < k.sched)

/-- The schedule cycle whose happenings are due: the one to come, or while the brake holds the last one performed (R229). -/
def schedNow (k : Channel) : Nat :=
  if brakeNow k then k.sched - 1 else k.sched

/-- Whether a row word of the core may issue: its task runs, its channel serves and is not braked (R50, R226, R228, R264). -/
def canIssue (s : State) (c : CoreId) : Bool :=
  decide ((startCore s c).status = .running) && decide ((getCh s (chOf c)).st = .serving) && !brakeNow (getCh s (chOf c))

/-- A general register (R39). -/
def gReg (k : Core) (r : Nat) : Word :=
  tabGet k.g 0 r

/-- A general register written. -/
def setG (r : Nat) (v : Word) (k : Core) : Core :=
  { k with g := tabSet k.g r v }

/-- A vector register (R108). -/
def vReg (k : Core) (r : Nat) : List Word :=
  tabGet k.v (List.replicate 128 0) r

/-- A vector register written. -/
def setV (r : Nat) (v : List Word) (k : Core) : Core :=
  { k with v := tabSet k.v r v }

/-- A lane's element of a vector register. -/
def laneW (ws : List Word) (i : Nat) : Word :=
  ws.getD i 0

/-- The reset values of the stored engine control registers (Tables 5.8, 7.8; all others zero). -/
def ecrReset (a : Nat) : Word :=
  if 0x201 ≤ a ∧ a ≤ 0x205 then 128 else if a = 0x3C3 then 15 else 0

/-- A stored engine control register. -/
def ecrGet (k : Core) (a : Nat) : Word :=
  tabGet k.ecr (ecrReset a) a

/-- A stored engine control register written. -/
def ecrSet (a : Nat) (v : Word) (k : Core) : Core :=
  { k with ecr := tabSet k.ecr a v }

/-- The origin of an operation of the row word now issuing (R51). -/
def originOf (k : Core) (slot word : Nat) : Origin :=
  ⟨k.pc, k.sched, slot, word, k.step⟩

/-! ### The dictionary's stored values -/

/-- The key of an object. -/
def dk (idx sub : Nat) : Nat :=
  256 * idx + sub

/-- An object's stored value, its Default where nothing was written (R355). -/
def dGet (s : State) (idx sub : Nat) : Nat :=
  tabGet s.dict (objDefault idx sub) (dk idx sub)

/-- An object's stored value written. -/
def dSet (s : State) (idx sub v : Nat) : State :=
  { s with dict := tabSet s.dict (dk idx sub) v }

/-- A counter of `w` bits that wraps (Table 16.12). -/
def dAdd (s : State) (idx sub w n : Nat) : State :=
  dSet s idx sub ((dGet s idx sub + n) % 2 ^ w)

/-- A 32-bit counter that saturates (R355). -/
def dSat (s : State) (idx sub n : Nat) : State :=
  dSet s idx sub (min (dGet s idx sub + n) 0xFFFFFFFF)

/-- The index of an object of a channel (R358). -/
def cIdx (ch off : Nat) : Nat :=
  0x1000 * (ch + 1) + off

/-- An object of a channel. -/
def cGet (s : State) (ch off sub : Nat) : Nat :=
  dGet s (cIdx ch off) sub

/-- An object of a channel written. -/
def cSet (s : State) (ch off sub v : Nat) : State :=
  dSet s (cIdx ch off) sub v

/-- The objects of an index range returned to their defaults (R355). -/
def dClear (s : State) (lo hi : Nat) : State :=
  { s with dict := s.dict.filter fun e => decide (e.1 < dk lo 0 ∨ dk hi 0 ≤ e.1) }

/-- The module's logical device (COM_DEV, Table 15.12). -/
def ownDev (s : State) : Nat :=
  dGet s 0x0100 1

/-! ### Free values -/

/-- The next number of the free values, and the state that has drawn it (DESIGN CHOICE: assumption log, 2). -/
def drawFree (s : State) : Nat × State :=
  (s.free, { s with free := s.free + 1 })

/-- `len` bytes of the n-th free value. -/
def freeBytes (n len : Nat) : List Byte :=
  (List.range len).map (Config.freeByte n)

/-- Eight bytes of the n-th free value as a number, from place `at8`. -/
def freeNat (n at8 : Nat) : Nat :=
  leNat ((List.range 8).map fun i => Config.freeByte n (at8 + i))

/-! ### Hub time and events -/

/-- Updates of the hub. -/
def updHub (s : State) (f : Hub → Hub) : State :=
  { s with hub := f s.hub }

/-- The hub time (R281): the lowest-lettered Serving channel's Fabric Time, else that of the lowest-lettered one Isolated or
Reloading; zero in Standby and when every channel is Resetting. -/
def hubTime (s : State) : Nat :=
  if s.hub.st = .standby ∨ s.hub.st = .off then 0
  else match [0, 1, 2, 3].find? fun n => (getCh s n).st = .serving with
    | some n => (getCh s n).ft
    | none => match [0, 1, 2, 3].find? fun n => (getCh s n).st ≠ .resetting with
      | some n => (getCh s n).ft
      | none => 0

/-- An event record (Table 15.7); `detail` begins at offset 16. -/
def mkEvent (code src job time : Nat) (detail : List Byte) : List Byte :=
  leBytes 2 code ++ leBytes 1 src ++ zeros 1 ++ leBytes 2 job ++ zeros 2 ++ leBytes 8 time ++ padTo 48 detail

/-- The management store with one record more; the oldest of 256 is dropped and counted (R372, Table 17.3). -/
def keepEvent (m : Mgmt) (r : List Byte) : Mgmt :=
  if m.store.length < 256 then { m with store := m.store ++ [r] }
  else { m with store := m.store.tail ++ [r], lost := min (m.lost + 1) 0xFFFF }

/-- An event record taken by the hub: held for its frame, or discarded and counted (R347); copied into the management store (R372). -/
def pushEvent (s : State) (r : List Byte) : State :=
  let h := s.hub
  let m := keepEvent h.mgmt r
  if h.events.length < 8192 then { s with hub := { h with events := h.events ++ [r], mgmt := m } }
  else dSat { s with hub := { h with evLost := h.evLost + 1, mgmt := m } } 0x0100 2 1

/-- An event of a channel. -/
def chEvent (s : State) (ch code job : Nat) (detail : List Byte) : State :=
  pushEvent s (mkEvent code ch job (getCh s ch).ft detail)

/-- An event of the hub. -/
def hubEvent (s : State) (code job : Nat) (detail : List Byte) : State :=
  pushEvent s (mkEvent code 0xFF job (hubTime s) detail)

end Sys2Proof.Machine
end

