-- ==== Sys2Proof/Machine/Crypto.lean ====
section
/-! DEFINITION. Crypto: CRC-32C (R333), SM3 and SM2 (Table 17.1, R376). The spec names GB/T 32905 and GB/T 32918 for the last
two; their constants are taken from those standards (PRESUMED: assumption log, 8). -/

namespace Sys2Proof.Machine

/-! ### CRC-32C -/

/-- One reflected shift of the CRC register. -/
def crcShift (v : Nat) : Nat :=
  if v % 2 = 1 then (v / 2) ^^^ 0x82F63B78 else v / 2

/-- One byte into the CRC register. -/
def crcByte (v : Nat) (b : Byte) : Nat :=
  let x := v ^^^ b.toNat
  crcShift (crcShift (crcShift (crcShift (crcShift (crcShift (crcShift (crcShift x)))))))

/-- CRC-32C (R333). -/
def crc32c (bs : List Byte) : Nat :=
  (bs.foldl crcByte 0xFFFFFFFF) ^^^ 0xFFFFFFFF

/-! ### SM3 -/

/-- Rotate left in 32 bits. -/
def rol (x n : Nat) : Nat :=
  let k := n % 32
  (x * 2 ^ k) % 4294967296 + x / 2 ^ (32 - k)

/-- The permutation P0 of SM3. -/
def sm3P0 (x : Nat) : Nat :=
  x ^^^ rol x 9 ^^^ rol x 17

/-- The permutation P1 of SM3. -/
def sm3P1 (x : Nat) : Nat :=
  x ^^^ rol x 15 ^^^ rol x 23

/-- The expanded message words, newest first, from the sixteen of a block (newest first), `k` more of them. -/
def sm3Expand : Nat → List Nat → List Nat
  | 0, ws => ws
  | k + 1, ws =>
    let w := sm3P1 (ws.getD 15 0 ^^^ ws.getD 8 0 ^^^ rol (ws.getD 2 0) 15) ^^^ rol (ws.getD 12 0) 7 ^^^ ws.getD 5 0
    sm3Expand k (w :: ws)

/-- The eight state words of SM3. -/
structure Sm3 where
  a : Nat
  b : Nat
  c : Nat
  d : Nat
  e : Nat
  f : Nat
  g : Nat
  h : Nat
deriving DecidableEq, Repr

/-- One of the 64 rounds; `w` and `w4` are the message words j and j + 4. -/
def sm3Round (j : Nat) (v : Sm3) (w w4 : Nat) : Sm3 :=
  let t := if j < 16 then 0x79CC4519 else 0x7A879D8A
  let ss1 := rol ((rol v.a 12 + v.e + rol t j) % 4294967296) 7
  let ss2 := ss1 ^^^ rol v.a 12
  let ff := if j < 16 then v.a ^^^ v.b ^^^ v.c else (v.a &&& v.b) ||| (v.a &&& v.c) ||| (v.b &&& v.c)
  let gg := if j < 16 then v.e ^^^ v.f ^^^ v.g else (v.e &&& v.f) ||| ((v.e ^^^ 0xFFFFFFFF) &&& v.g)
  let tt1 := (ff + v.d + ss2 + (w ^^^ w4)) % 4294967296
  let tt2 := (gg + v.h + ss1 + w) % 4294967296
  { a := tt1, b := v.a, c := rol v.b 9, d := v.c, e := sm3P0 tt2, f := v.e, g := rol v.f 19, h := v.g }

/-- The rounds over the words in order. -/
def sm3Rounds : Nat → Nat → Sm3 → List Nat → Sm3
  | 0, _, v, _ => v
  | n + 1, j, v, ws => sm3Rounds n (j + 1) (sm3Round j v (ws.headD 0) (ws.getD 4 0)) ws.tail

/-- The compression of one block of 64 bytes. -/
def sm3Block (v : Sm3) (blk : List Byte) : Sm3 :=
  let w16 := (List.range 16).map fun i => beNat (slice blk (4 * i) 4)
  let ws := (sm3Expand 52 w16.reverse).reverse
  let r := sm3Rounds 64 0 v ws
  { a := r.a ^^^ v.a, b := r.b ^^^ v.b, c := r.c ^^^ v.c, d := r.d ^^^ v.d, e := r.e ^^^ v.e, f := r.f ^^^ v.f,
    g := r.g ^^^ v.g, h := r.h ^^^ v.h }

/-- The padded message: a one bit, zeros, the bit length in 64 bits. -/
def sm3Pad (bs : List Byte) : List Byte :=
  bs ++ [0x80] ++ zeros ((119 - bs.length % 64) % 64) ++ beBytes 8 (8 * bs.length)

/-- The SM3 hash, 32 bytes. -/
def sm3 (bs : List Byte) : List Byte :=
  let iv : Sm3 := ⟨0x7380166F, 0x4914B2B9, 0x172442D7, 0xDA8A0600, 0xA96F30BC, 0x163138AA, 0xE38DEE4D, 0xB0FB0E4E⟩
  let p := sm3Pad bs
  let r := (chunksOf 64 (p.length / 64) p).foldl sm3Block iv
  [r.a, r.b, r.c, r.d, r.e, r.f, r.g, r.h].flatMap (beBytes 4)

/-- The SM3 hash as a number whose most significant byte is the first. -/
def sm3N (bs : List Byte) : BitVec 256 :=
  BitVec.ofNat 256 (beNat (sm3 bs))

/-! ### SM2 (GB/T 32918.2, recommended curve) -/

/-- The field's prime. -/
def sm2P : Nat := 0xFFFFFFFEFFFFFFFFFFFFFFFFFFFFFFFFFFFFFFFF00000000FFFFFFFFFFFFFFFF
/-- The coefficient b; the coefficient a is p - 3. -/
def sm2B : Nat := 0x28E9FA9E9D9F5E344D5A9E4BCF6509A7F39789F515AB8F92DDBCBD414D940E93
/-- The order of the base point. -/
def sm2N : Nat := 0xFFFFFFFEFFFFFFFFFFFFFFFFFFFFFFFF7203DF6B21C6052B53BBF40939D54123
/-- The base point. -/
def sm2Gx : Nat := 0x32C4AE2C1F1981195F9904466A39C9948FE30BBFF2660BE1715A4589334C74C7
/-- The base point. -/
def sm2Gy : Nat := 0xBC3736A2F4F6779C59BDCEE36B692153D0A9877CC62A474002DF32E52139F0A0

/-- A power in the field, by `fuel` bits of the exponent. -/
def powMod (m : Nat) : Nat → Nat → Nat → Nat → Nat
  | 0, _, _, acc => acc
  | fuel + 1, b, e, acc => powMod m fuel (b * b % m) (e / 2) (if e % 2 = 1 then acc * b % m else acc)

/-- The inverse modulo a prime. -/
def invMod (m v : Nat) : Nat :=
  powMod m 256 (v % m) (m - 2) 1

/-- The sum of two points; none is the point at infinity. -/
def ecAdd (p q : Option (Nat × Nat)) : Option (Nat × Nat) :=
  match p, q with
  | none, q => q
  | p, none => p
  | some (x1, y1), some (x2, y2) =>
    if x1 = x2 ∧ (y1 + y2) % sm2P = 0 then none
    else
      let l := if x1 = x2 then (3 * x1 * x1 + (sm2P - 3)) * invMod sm2P (2 * y1) % sm2P
        else (y2 + sm2P - y1) * invMod sm2P (x2 + sm2P - x1) % sm2P
      let x := (l * l + 2 * sm2P - x1 - x2) % sm2P
      some (x, (l * (x1 + sm2P - x) + sm2P - y1) % sm2P)

/-- A multiple of a point, by `fuel` bits. -/
def ecMul : Nat → Nat → Option (Nat × Nat) → Option (Nat × Nat) → Option (Nat × Nat)
  | 0, _, _, acc => acc
  | fuel + 1, k, p, acc => ecMul fuel (k / 2) (ecAdd p p) (if k % 2 = 1 then ecAdd acc p else acc)

/-- The coordinates of a KEY (Table 16.1): x then y, each 32 bytes big-endian. -/
def keyXY (key : List Byte) : Nat × Nat :=
  (beNat (slice key 0 32), beNat (slice key 32 32))

/-- The point lies on the curve (R379). -/
def onCurve (key : List Byte) : Bool :=
  let x := (keyXY key).1
  let y := (keyXY key).2
  decide (key.length = 64 ∧ x < sm2P ∧ y < sm2P ∧ y * y % sm2P = (x * x * x + (sm2P - 3) * x + sm2B) % sm2P)

/-- ZA of the default user identity (R376). -/
def sm2Za (key : List Byte) : List Byte :=
  sm3 (beBytes 2 128 ++ [0x31, 0x32, 0x33, 0x34, 0x35, 0x36, 0x37, 0x38, 0x31, 0x32, 0x33, 0x34, 0x35, 0x36, 0x37, 0x38] ++
    beBytes 32 (sm2P - 3) ++ beBytes 32 sm2B ++ beBytes 32 sm2Gx ++ beBytes 32 sm2Gy ++ key)

/-- An SM2 signature over H verifies under a key (R376). -/
def sm2Verify (key h sig : List Byte) : Bool :=
  let r := beNat (slice sig 0 32)
  let v := beNat (slice sig 32 32)
  let e := beNat (sm3 (sm2Za key ++ h))
  let t := (r + v) % sm2N
  if onCurve key ∧ sig.length = 64 ∧ 0 < r ∧ r < sm2N ∧ 0 < v ∧ v < sm2N ∧ t ≠ 0 then
    match ecAdd (ecMul 256 v (some (sm2Gx, sm2Gy)) none) (ecMul 256 t (some (keyXY key)) none) with
    | some (x, _) => decide ((e + x) % sm2N = r)
    | none => false
  else false

/-- A key hash (R376). -/
def keyHash (key : List Byte) : List Byte :=
  sm3 key

end Sys2Proof.Machine
end

