-- ==== Sys2Proof/Machine/Ahnec.lean ====
section
/-! DEFINITION. Ahnec: the host port (R330-R351): frames, link numbering, replay and credits, class order, and the answers the
hub sends. A frame that reaches its turn waits in `inbox` for the tick to make it a command. -/

namespace Sys2Proof.Machine

/-! ### Frames on the wire -/

/-- A link. -/
def getAhn (s : State) (l : Nat) : Ahn :=
  tabGet s.hub.ahn Ahn.reset l

/-- A link changed. -/
def updAhn (s : State) (l : Nat) (f : Ahn → Ahn) : State :=
  updHub s fun h => { h with ahn := tabUpd h.ahn Ahn.reset l f }

/-- Bytes of a whole frame with a payload of `n` bytes (R332): the trailer ends the first 32-byte word that can hold it. -/
def frameLen (n : Nat) : Nat :=
  (n + 36 + 31) / 32 * 32

/-- The class whose credits the next header returns: the lowest with any. -/
def retClass (a : Ahn) : Nat :=
  ((List.range 7).find? fun c => decide (tabGet a.retCred 0 c ≠ 0)).getD 0

/-- The header of Table 15.2. -/
def ahnHeader (a : Ahn) (kind lseq : Nat) (f : Frame) : List Byte :=
  let c := retClass a
  let h := leBytes 1 kind ++ leBytes 1 f.cls ++ leBytes 2 f.payload.length ++ leBytes 2 lseq ++ leBytes 2 a.rxSeq ++
    leBytes 1 (b2n a.nak + 2) ++ leBytes 1 c ++ leBytes 2 (tabGet a.retCred 0 c) ++ leBytes 4 f.cseq ++ leBytes 1 f.op ++
    leBytes 1 f.status ++ leBytes 2 f.job ++ leBytes 8 f.arg.toNat
  h ++ leBytes 4 (crc32c h)

/-- A whole frame on the wire (R332). -/
def ahnBytes (a : Ahn) (lseq : Nat) (f : Frame) : List Byte :=
  let b := padTo (frameLen f.payload.length - 4) (ahnHeader a 0x5A lseq f ++ f.payload)
  b ++ leBytes 4 (crc32c b)

/-- The frame of a link word: every field of the class zero (R332). -/
def idleFrame : Frame :=
  ⟨0, 0, 0, 0, 0, 0, []⟩

/-- A link word sent, with the acknowledgement and the credits it returns. -/
def ahnWord (a : Ahn) : Ahn :=
  { a with out := a.out ++ [ahnHeader a 0xA5 0 idleFrame], nak := false, retCred := tabDel a.retCred (retClass a) }

/-- Credits a frame uses: one for each 256 bytes begun (R338). -/
def frameCredits (f : Frame) : Nat :=
  (frameLen f.payload.length + 255) / 256

/-- Bytes waiting in a replay buffer (R335). -/
def replayBytes (a : Ahn) : Nat :=
  (a.replay.map fun e => frameLen e.2.payload.length).sum

/-- Whether a link may send a frame now: UP, credits held, room in the replay buffer (R335, R338). -/
def ahnCan (a : Ahn) (f : Frame) : Bool :=
  decide (a.st = .up) && decide (frameCredits f ≤ tabGet a.credits 0 f.cls) &&
    decide (replayBytes a + frameLen f.payload.length ≤ 2097152)

/-- A frame sent on a link. -/
def ahnTx (time : Nat) (a : Ahn) (f : Frame) : Ahn :=
  { a with
    out := a.out ++ [ahnBytes a a.txSeq f]
    nak := false
    retCred := tabDel a.retCred (retClass a)
    txSeq := (a.txSeq + 1) % 65536
    credits := tabSet a.credits f.cls (tabGet a.credits 0 f.cls - frameCredits f)
    replay := a.replay ++ [(a.txSeq, f)]
    lastAck := if a.replay = [] then time else a.lastAck
    progAt := if a.replay = [] then time else a.progAt }

/-- The link that takes an outgoing frame: the lower-numbered of those that can (R338). -/
def ahnPick (s : State) (f : Frame) : Option Nat :=
  if ahnCan (getAhn s 0) f then some 0 else if ahnCan (getAhn s 1) f then some 1 else none

/-- The waiting frames, oldest first, each sent when a link can take it; a class that must wait keeps its order. -/
def ahnPump : List Frame → List Nat → List Frame → State → State
  | [], _, kept, s => updHub s fun h => { h with out := kept.reverse }
  | f :: r, blocked, kept, s =>
    if blocked.contains f.cls then ahnPump r blocked (f :: kept) s
    else match ahnPick s f with
      | some l => ahnPump r blocked kept (dAdd (updAhn s l fun a => ahnTx s.hub.time a f) (0x0110 + l) 7 64 1)
      | none => ahnPump r (f.cls :: blocked) (f :: kept) s

/-- The waiting frames sent as far as the links allow. -/
def ahnFlush (s : State) : State :=
  ahnPump s.hub.out [] [] s

/-- A frame of the device takes its class number and waits for a link (R337). -/
def ahnSend (s : State) (cls op status job : Nat) (arg : BitVec 64) (payload : List Byte) : State :=
  let n := tabGet s.hub.txCseq 0 cls
  ahnFlush (updHub s fun h => { h with
    out := h.out ++ [⟨cls, n, op, status, job, arg, payload⟩]
    txCseq := tabSet h.txCseq cls ((n + 1) % 4294967296) })

/-! ### Answers -/

/-- A vendor message of the module (Table 17.2). -/
def vendorMsg (code tag status : Nat) (body : List Byte) : List Byte :=
  [0x7F] ++ beBytes 4 61873 ++ leBytes 1 code ++ leBytes 1 tag ++ leBytes 1 status ++ [0] ++ body

/-- A packet for the management port (R372). -/
def mgmtSend (s : State) (m : List Byte) : State :=
  updHub s fun h => { h with mgmt := { h.mgmt with answers := h.mgmt.answers ++ [m] } }

/-- The answer to a dictionary request: a RESPONSE frame (R348), or a DICT_RSP message (R372). -/
def answer (s : State) (q : Req) (status : Nat) (value : List Byte) : State :=
  match q.port with
  | .ahnec => ahnSend s 2 3 status 0xFFFF (BitVec.ofNat 64 (q.cseq.toNat * 4294967296)) value
  | .mgmt => mgmtSend s (vendorMsg 2 q.cseq.toNat status (leBytes 2 value.length ++ value))

/-- The answer to a data frame: WRITE_ACK, READ_DATA or MSG_STATUS (Tables 15.5, 15.6). -/
def dataAnswer (s : State) (op status job cseq : Nat) (payload : List Byte) : State :=
  ahnSend s 1 op status job (BitVec.ofNat 64 cseq) payload

/-! ### Receiving -/

/-- LACK applied: every frame up to the one it names leaves the replay buffer (R335). -/
def ahnAck (time lack : Nat) (a : Ahn) : Ahn :=
  if a.replay.any fun e => e.1 == lack then
    { a with replay := (a.replay.dropWhile fun e => e.1 != lack).tail, lastAck := time, progAt := time }
  else a

/-- Every frame not acknowledged sent again, in order (R335). -/
def ahnResend (time : Nat) (a : Ahn) : Ahn :=
  { a with out := a.out ++ a.replay.map (fun e => ahnBytes a e.1 e.2), lastAck := time }

/-- The link-level fields of a header applied (R334): acknowledgement, credits, NAK. -/
def ahnFields (s : State) (l : Nat) (h : List Byte) : State :=
  let flags := fld h 8 1
  let s := updAhn s l fun a =>
    let a := if bit flags 1 then ahnAck s.hub.time (fld h 6 2) a else a
    { a with credits := tabUpd a.credits 0 (fld h 9 1) (· + fld h 10 2) }
  if bit flags 0 ∧ (getAhn s l).replay ≠ [] then dSat (updAhn s l (ahnResend s.hub.time)) (0x0110 + l) 4 1 else s

/-- The frame that a header and its payload spell. -/
def ahnParse (b : List Byte) : Frame :=
  ⟨fld b 1 1, fld b 12 4, fld b 16 1, fld b 17 1, fld b 18 2, BitVec.ofNat 64 (fld b 20 8), slice b 32 (fld b 2 2)⟩

/-- An operation the device takes in a class (Tables 15.3-15.5; R346, R348, R382). -/
def ahnKnown (f : Frame) : Bool :=
  match f.cls with
  | 0 => f.op == 1 || f.op == 2 || f.op == 3
  | 1 => f.op == 1 || f.op == 3 || f.op == 5
  | 2 => f.op == 1 || f.op == 2
  | 3 => f.op == 1
  | 6 => f.op == 1
  | _ => false

/-- The early frames of a class delivered while each is the next expected one. -/
def ahnDrain (cls : Nat) : Nat → State → State
  | 0, s => s
  | n + 1, s =>
    match s.hub.early.find? fun e => e.2.cls == cls && e.2.cseq == tabGet s.hub.rxCseq 0 cls with
    | none => s
    | some e => ahnDrain cls n (updHub s fun h => { h with
        early := h.early.filter fun x => !(x.2.cls == cls && x.2.cseq == e.2.cseq)
        rxCseq := tabSet h.rxCseq cls ((e.2.cseq + 1) % 4294967296)
        gapAt := tabDel h.gapAt cls
        inbox := h.inbox ++ [e.2] })

/-- A frame taken by its class in CSEQ order (R337): delivered, discarded as a duplicate, or kept for the missing one. -/
def ahnClass (s : State) (l : Nat) (f : Frame) : State :=
  let want := tabGet s.hub.rxCseq 0 f.cls
  if f.cseq = want then
    ahnDrain f.cls (s.hub.early.length + 1) (updHub s fun h => { h with
      rxCseq := tabSet h.rxCseq f.cls ((want + 1) % 4294967296)
      gapAt := tabDel h.gapAt f.cls
      inbox := h.inbox ++ [f] })
  else if (want + 4294967296 - f.cseq) % 4294967296 < 2147483648 then s
  else if s.hub.early.any fun e => e.2.cls == f.cls && e.2.cseq == f.cseq then s
  else updHub s fun h => { h with
      early := h.early ++ [(l, f)]
      gapAt := if (tabFind h.gapAt f.cls).isNone then tabSet h.gapAt f.cls h.time else h.gapAt }

/-- A whole frame received (R335): accepted in LSEQ order with a good trailer; its credits return at once, since every class is
emptied into resources that consume unconditionally (R339). -/
def ahnTake (s : State) (l : Nat) (b : List Byte) : State :=
  let n := frameLen (fld b 2 2)
  let a := getAhn s l
  let good := decide (b.length = n) && decide (fld b 2 2 ≤ 9180) && decide (fld b (n - 4) 4 = crc32c (b.take (n - 4)))
  if !good then dSat (updAhn s l fun a => { a with nak := true }) (0x0110 + l) 5 1
  else if fld b 4 2 ≠ (a.rxSeq + 1) % 65536 then s
  else
    let f := ahnParse b
    let s := updAhn s l fun a => { a with
      rxSeq := fld b 4 2
      retCred := if f.cls < 7 then tabUpd a.retCred 0 f.cls (· + frameCredits f) else a.retCred }
    if ahnKnown f then ahnClass s l f else dSat s 0x0100 4 1

/-- A link that hears its peer: in UP, and in a shutdown until the frames sent are acknowledged (Table 15.1). -/
def ahnHears (st : AhnSt) : Bool :=
  decide (st = .up ∨ st = .shutdown ∨ st = .restarting)

/-- A word or a frame arrives (R334, R335, R337, R338). -/
def ahnReceive (s : State) (l : Nat) (b : List Byte) : State :=
  if !ahnHears (getAhn s l).st then s
  else if b.length < 32 ∨ fld b 28 4 ≠ crc32c (b.take 28) then s
  else if fld b 0 1 = 0xA5 then ahnFlush (ahnFields s l b)
  else if fld b 0 1 = 0x5A then
    let s := ahnTake (ahnFields s l b) l b
    ahnFlush (updAhn s l ahnWord)
  else s

/-! ### Link states (Table 15.1) -/

/-- A link enters a state; DARK and UP send an AHN_LINK event (R331). -/
def ahnEnter (s : State) (l : Nat) (st : AhnSt) : State :=
  let s := updAhn s l fun a => { a with st := st, since := s.hub.time }
  match st with
  | .dark => hubEvent s 0x0080 0xFFFF (leBytes 1 l ++ leBytes 1 3)
  | .up => hubEvent s 0x0080 0xFFFF (leBytes 1 l ++ leBytes 1 5)
  | _ => s

/-- A link that leaves UP: its frames not acknowledged go first to the other link, keeping class and CSEQ (R336). -/
def ahnLeaveUp (s : State) (l : Nat) : State :=
  let fs := (getAhn s l).replay.map (·.2)
  updHub (updAhn s l fun a => { a with replay := [], credits := [], retCred := [], nak := false })
    fun h => { h with out := fs ++ h.out }

/-- AHN_FRAME_RECEIPT. -/
def execAhnFrameReceipt (l : BitVec 1) (bytes : List Byte) (s : State) : Host.Outcome State Fault Refusal :=
  .next (ahnReceive s l.toNat bytes)

/-- AHN_RESEND_TIMEOUT (R335). -/
def execAhnResendTimeout (l : BitVec 1) (s : State) : Host.Outcome State Fault Refusal :=
  if (getAhn s l.toNat).st = .up ∧ (getAhn s l.toNat).replay ≠ [] then
    .next (dSat (updAhn s l.toNat (ahnResend s.hub.time)) (0x0110 + l.toNat) 4 1)
  else .next s

/-- AHN_LIGHT_DETECT: DARK to TRAINING (Table 15.1). -/
def execAhnLightDetect (l : BitVec 1) (s : State) : Host.Outcome State Fault Refusal :=
  if (getAhn s l.toNat).st = .dark ∧ s.hub.st ≠ .standby ∧ s.hub.st ≠ .off then .next (ahnEnter s l.toNat .training) else .next s

/-- AHN_TRAINING_COMPLETE: TRAINING to UP, credits zero (Table 15.1, R338); the device returns its buffer sizes (Table 15.3). -/
def execAhnTrainingComplete (l : BitVec 1) (s : State) : Host.Outcome State Fault Refusal :=
  if (getAhn s l.toNat).st = .training then
    .next (ahnFlush (ahnEnter (updAhn s l.toNat fun a => { a with
      credits := []
      retCred := [(0, 1024), (1, 4096), (2, 256), (3, 64), (6, 64)] }) l.toNat .up))
  else .next s

/-- AHN_TRAINING_TIMEOUT: back to DARK (Table 15.1). -/
def execAhnTrainingTimeout (l : BitVec 1) (s : State) : Host.Outcome State Fault Refusal :=
  if (getAhn s l.toNat).st = .training then .next (ahnEnter s l.toNat .dark) else .next s

/-- AHN_LINK_LOSS: UP to DARK, its frames to the other link (Table 15.1, R336). -/
def execAhnLinkLoss (l : BitVec 1) (s : State) : Host.Outcome State Fault Refusal :=
  if (getAhn s l.toNat).st = .up then
    .next (ahnFlush (ahnEnter (ahnLeaveUp (dSat s (0x0110 + l.toNat) 6 1) l.toNat) l.toNat .dark))
  else .next s

/-- AHN_SHUTDOWN_COMPLETE: SHUTDOWN to DISABLED, RESTARTING to DARK (Table 15.1). -/
def execAhnShutdownComplete (l : BitVec 1) (s : State) : Host.Outcome State Fault Refusal :=
  match (getAhn s l.toNat).st with
  | .shutdown => .next (ahnFlush (ahnEnter (ahnLeaveUp s l.toNat) l.toNat .disabled))
  | .restarting => .next (ahnFlush (ahnEnter (ahnLeaveUp s l.toNat) l.toNat .dark))
  | _ => .next s

/-- AHN_CLASS_GAP: a gap of a class has lasted 10 ms (R337). -/
def execAhnClassGap (l : BitVec 1) (cls : BitVec 3) (s : State) : Host.Outcome State Fault Refusal :=
  if s.hub.early.any fun e => e.2.cls == cls.toNat then
    .next (hubEvent (updHub s fun h => { h with gapAt := tabDel h.gapAt cls.toNat }) 0x0081 0xFFFF
      (leBytes 1 l.toNat ++ leBytes 1 cls.toNat ++ zeros 2 ++ leBytes 4 (tabGet s.hub.rxCseq 0 cls.toNat)))
  else .next s

/-- The event frame of the records waiting, up to 143 (R347). -/
def eventFrame (s : State) : Frame :=
  ⟨4, tabGet s.hub.txCseq 0 4, 1, 0, 0xFFFF, 0, (s.hub.events.take 143).flatten⟩

/-- EVENT_FRAME_SEND (R347): one event frame on a link that holds its credits; a count of lost records follows when space returns. -/
def execEventFrameSend (s : State) : Host.Outcome State Fault Refusal :=
  if s.hub.events = [] then .next s
  else match ahnPick s (eventFrame s) with
    | none => .next s
    | some l =>
      let t := dAdd (updAhn s l fun a => ahnTx s.hub.time a (eventFrame s)) (0x0110 + l) 7 64 1
      let t := updHub t fun h => { h with
        events := h.events.drop 143
        txCseq := tabSet h.txCseq 4 ((tabGet h.txCseq 0 4 + 1) % 4294967296) }
      if t.hub.evLost = 0 then .next t
      else .next (hubEvent (updHub t fun h => { h with evLost := 0 }) 0x0082 0xFFFF (leBytes 4 s.hub.evLost))

end Sys2Proof.Machine
end

