-- ==== Sys2Proof/Machine/Fec.lean ====
section
/-! DEFINITION. Fec: the Reed-Solomon code of a flit (R307) and the flit's bytes (Tables 14.2, 14.3). The codeword of 128 symbols
is two per flit; up to three symbol errors are corrected. -/

namespace Sys2Proof.Machine

/-- Product in GF(2^8) with the polynomial x^8 + x^4 + x^3 + x^2 + 1, by `fuel` bits of the second factor. -/
def gfMulAux : Nat → Nat → Nat → Nat → Nat
  | 0, _, _, acc => acc
  | n + 1, a, b, acc =>
    gfMulAux n (if a < 128 then 2 * a else (2 * a) ^^^ 0x11D) (b / 2) (if b % 2 = 1 then acc ^^^ a else acc)

/-- Product in GF(2^8). -/
def gfMul (a b : Nat) : Nat :=
  gfMulAux 8 a b 0

/-- A power in GF(2^8). -/
def gfPow (a : Nat) : Nat → Nat
  | 0 => 1
  | n + 1 => gfMul a (gfPow a n)

/-- The inverse in GF(2^8). -/
def gfInv (a : Nat) : Nat :=
  let a2 := gfMul a a
  let a4 := gfMul a2 a2
  let a8 := gfMul a4 a4
  let a16 := gfMul a8 a8
  let a32 := gfMul a16 a16
  let a64 := gfMul a32 a32
  let a128 := gfMul a64 a64
  gfMul a128 (gfMul a64 (gfMul a32 (gfMul a16 (gfMul a8 (gfMul a4 a2)))))

/-- The generator's coefficients below x^6, highest first: the product of (x - α^i), i = 0 to 5 (R307). -/
def rsGen : List Nat :=
  ((List.range 6).foldl (fun g i => (List.range (g.length + 1)).map fun k =>
    g.getD k 0 ^^^ (if k = 0 then 0 else gfMul (gfPow 2 i) (g.getD (k - 1) 0))) [1]).tail

/-- One data symbol into the parity register (highest degree first). -/
def rsStep (par : List Nat) (d : Nat) : List Nat :=
  let f := d ^^^ par.headD 0
  (List.range 6).map fun k => par.getD (k + 1) 0 ^^^ gfMul f (rsGen.getD k 0)

/-- The six parity symbols of 122 data symbols. -/
def rsParity (data : List Nat) : List Nat :=
  data.foldl rsStep (List.replicate 6 0)

/-- The value of a codeword at α^i. -/
def rsEval (cw : List Nat) (i : Nat) : Nat :=
  cw.foldl (fun a c => gfMul a (gfPow 2 i) ^^^ c) 0

/-- The determinant of a 3 × 3 matrix given by rows. -/
def det3 (a b c d e f g h k : Nat) : Nat :=
  gfMul a (gfMul e k ^^^ gfMul f h) ^^^ gfMul b (gfMul d k ^^^ gfMul f g) ^^^ gfMul c (gfMul d h ^^^ gfMul e g)

/-- The error locator's coefficients (Λ1, Λ2, Λ3) and the number of errors, from the syndromes; none where no locator of degree
at most 3 fits. -/
def rsLocator (s : List Nat) : Option (Nat × Nat × Nat × Nat) :=
  let s0 := s.getD 0 0
  let s1 := s.getD 1 0
  let s2 := s.getD 2 0
  let s3 := s.getD 3 0
  let s4 := s.getD 4 0
  let s5 := s.getD 5 0
  let d3 := det3 s0 s1 s2 s1 s2 s3 s2 s3 s4
  let d2 := gfMul s0 s2 ^^^ gfMul s1 s1
  if d3 ≠ 0 then
    let i := gfInv d3
    some (3, gfMul i (det3 s0 s1 s3 s1 s2 s4 s2 s3 s5), gfMul i (det3 s0 s3 s2 s1 s4 s3 s2 s5 s4), gfMul i (det3 s3 s1 s2 s4 s2 s3 s5 s3 s4))
  else if d2 ≠ 0 then
    let i := gfInv d2
    some (2, gfMul i (gfMul s0 s3 ^^^ gfMul s1 s2), gfMul i (gfMul s1 s3 ^^^ gfMul s2 s2), 0)
  else if s0 ≠ 0 then some (1, gfMul (gfInv s0) s1, 0, 0)
  else none

/-- The degrees at which the locator names an error, among the codeword's 128. -/
def rsPlaces (l1 l2 l3 : Nat) : List Nat :=
  (List.range 128).filter fun j =>
    let x := gfInv (gfPow 2 j)
    (1 ^^^ gfMul l1 x ^^^ gfMul l2 (gfMul x x) ^^^ gfMul l3 (gfMul x (gfMul x x))) == 0

/-- The error values at the places named. -/
def rsValues (s : List Nat) : List Nat → List (Nat × Nat)
  | [a] => [(a, s.getD 0 0)]
  | [a, b] =>
    let x := gfPow 2 a
    let y := gfPow 2 b
    let e := gfMul (s.getD 1 0 ^^^ gfMul (s.getD 0 0) x) (gfInv (x ^^^ y))
    [(a, s.getD 0 0 ^^^ e), (b, e)]
  | [a, b, c] =>
    let x := gfPow 2 a
    let y := gfPow 2 b
    let z := gfPow 2 c
    let s0 := s.getD 0 0
    let s1 := s.getD 1 0
    let s2 := s.getD 2 0
    let i := gfInv (det3 1 1 1 x y z (gfMul x x) (gfMul y y) (gfMul z z))
    [(a, gfMul i (det3 s0 1 1 s1 y z s2 (gfMul y y) (gfMul z z))),
     (b, gfMul i (det3 1 s0 1 x s1 z (gfMul x x) s2 (gfMul z z))),
     (c, gfMul i (det3 1 1 s0 x y s1 (gfMul x x) (gfMul y y) s2))]
  | _ => []

/-- A codeword corrected, with the number of symbols changed; none where it cannot be (R307). -/
def rsDecode (cw : List Nat) : Option (List Nat × Nat) :=
  let s := (List.range 6).map (rsEval cw)
  if s.all (· == 0) then some (cw, 0)
  else match rsLocator s with
    | none => none
    | some (v, l1, l2, l3) =>
      let ps := rsPlaces l1 l2 l3
      if ps.length ≠ v then none
      else
        let es := rsValues s ps
        let fix := (List.range 128).map fun k => cw.getD k 0 ^^^ ((es.find? fun e => e.1 == 127 - k).map (·.2)).getD 0
        if (List.range 6).all fun i => rsEval fix i == 0 then some (fix, v) else none

/-- Every second byte of a list, from a start. -/
def everyOther (bs : List Byte) (start n : Nat) : List Nat :=
  (List.range n).map fun k => (bs.getD (start + 2 * k) 0).toNat

/-- Two lists of symbols interleaved into bytes. -/
def interleave : List Nat → List Nat → List Byte
  | a :: as, b :: bs => BitVec.ofNat 8 a :: BitVec.ofNat 8 b :: interleave as bs
  | _, _ => []

/-- The twelve parity bytes of the first 244 (R307). -/
def fecParity (b : List Byte) : List Byte :=
  interleave (rsParity (everyOther b 0 122)) (rsParity (everyOther b 1 122))

/-- A flit's 256 bytes corrected, with the bytes corrected; none where a codeword fails (R307). -/
def fecDecode (b : List Byte) : Option (List Byte × Nat) :=
  match rsDecode (everyOther b 0 128), rsDecode (everyOther b 1 128) with
  | some (x, m), some (y, n) => some (interleave x y, m + n)
  | _, _ => none

/-- The link header of Table 14.3. -/
def flitHeader (type vl seq ack : Nat) (nak isFirst : Bool) (crvl crcnt : Nat) : Nat :=
  type * 2 ^ 60 + vl * 2 ^ 58 + seq * 2 ^ 46 + ack * 2 ^ 34 + b2n nak * 2 ^ 33 + b2n isFirst * 2 ^ 32 + crvl * 2 ^ 30 + crcnt * 2 ^ 20

/-- A flit's bytes (Table 14.2); a drawbar port's parity is zero (R320). -/
def flitBytes (external : Bool) (hdr : Nat) (pay : List Byte) : List Byte :=
  let b := leBytes 8 hdr ++ padTo 232 pay
  let b := b ++ leBytes 4 (crc32c b)
  b ++ (if external then fecParity b else zeros 12)

end Sys2Proof.Machine
end

