-- ==== Sys2Proof/Machine/Access.lean ====
section
/-! DEFINITION. Access: who may reach which object, when (R354, R356, R367, R374, R385), and signed writes (R379, R380). -/

namespace Sys2Proof.Machine

/-! ### Jobs and idleness -/

/-- A job slot. -/
def getJob (s : State) (j : Nat) : Job :=
  tabGet s.hub.jobs Job.reset j

/-- A job slot changed. -/
def updJob (s : State) (j : Nat) (f : Job → Job) : State :=
  updHub s fun h => { h with jobs := tabUpd h.jobs Job.reset j f }

/-- The module record of this module in a placement (Table 11.10). -/
def ownRecord (j : Job) : List Byte :=
  ((j.latched.find? fun r => fld r.2 0 1 == 1 && bit (fld r.2 11 1) 0).map (·.2)).getD (zeros 32)

/-- The placed channel of an image channel under a CHMAP (Table 11.10). -/
def chMap (chmap k : Nat) : Nat :=
  bits chmap (2 * (k % 4)) 2

/-- The channels of this module that a slot's placement names: those of its tasks, and before its TASKS section has come those of its
CHMAP. -/
def jobChans (j : Job) : List Nat :=
  if j.tasks = [] ∧ j.st = .receiving then (List.range 4).map (chMap (fld (ownRecord j) 10 1))
  else j.tasks.map fun t => t.2 / 128

/-- The slot counts against idleness (R356). -/
def jobLive (j : Job) : Bool :=
  decide (j.st = .receiving) || decide (j.st = .loaded) || decide (j.st = .running)

/-- A channel is idle (R356). -/
def chIdle (s : State) (ch : Nat) : Bool :=
  s.hub.jobs.all fun e => !(jobLive e.2 && (jobChans e.2).contains ch)

/-- Every channel that an object concerns is idle (R356). -/
def idleFor (s : State) (idx : Nat) : Bool :=
  if 0x1000 ≤ idx then chIdle s (idx / 0x1000 - 1) else (List.range 4).all (chIdle s)

/-! ### Reach -/

/-- The port can bring a request at all: the management port on auxiliary power, the Ahnec port with the hub powered (R373). -/
def portUp (s : State) (q : Req) : Bool :=
  match q.port with
  | .mgmt => decide (s.hub.st ≠ .off)
  | .ahnec => decide (s.hub.st = .ready ∨ s.hub.st = .serving)

/-- A vendor message reaches the module: on the management port only once the bus owner has set an endpoint ID (R370). -/
def mgmtHears (s : State) (q : Req) : Bool :=
  match q.port with
  | .mgmt => decide (s.hub.mgmt.eid ≠ 0)
  | .ahnec => true

/-- Objects served in Standby (Table 16.11). -/
def standbyServed (idx sub : Nat) : Bool :=
  decide (idx = 0 ∨ idx = 1 ∨ (idx = 0x0100 ∧ sub = 1) ∨ (0x0120 ≤ idx ∧ idx ≤ 0x012F) ∨ (0x0300 ≤ idx ∧ idx ≤ 0x03FF) ∨
    (0x0200 ≤ idx ∧ idx ≤ 0x0204) ∨ idx = 0x0500)

/-- Objects served before a management program runs (R374). -/
def romServed (idx : Nat) : Bool :=
  decide (idx ≤ 1 ∨ (0x0100 ≤ idx ∧ idx ≤ 0x0111) ∨ (0x0120 ≤ idx ∧ idx ≤ 0x012F) ∨ (0x0200 ≤ idx ∧ idx ≤ 0x0204) ∨
    (0x0300 ≤ idx ∧ idx ≤ 0x03FF) ∨ idx = 0x0500)

/-- What the management port may read (Table 16.11, R385), besides MGT objects. -/
def mgmtReads (idx sub : Nat) : Bool :=
  let n := objNorm idx
  decide (idx ≤ 1 ∨ (idx = 0x0100 ∧ sub = 1) ∨ (0x0120 ≤ idx ∧ idx ≤ 0x012F) ∨ (0x0300 ≤ idx ∧ idx ≤ 0x03FF) ∨
    (0x0200 ≤ idx ∧ idx ≤ 0x0204) ∨ (0x0400 ≤ idx ∧ idx ≤ 0x0402) ∨ idx = 0x0500 ∨ n = 0x1000 ∨
    (0x1100 ≤ n ∧ n ≤ 0x1104) ∨ (n = 0x1502 ∧ (sub = 1 ∨ sub = 2)) ∨ (0x1600 ≤ n ∧ n ≤ 0x1603) ∨ n = 0x1704)

/-- What the management port may write (Table 16.11, R385), besides MGT objects. -/
def mgmtWrites (idx sub : Nat) : Bool :=
  let n := objNorm idx
  decide ((idx = 0x0201 ∧ sub = 8) ∨ (idx = 0x0203 ∧ sub = 9) ∨ ((idx = 0x0401 ∨ idx = 0x0402) ∧ sub = 5) ∨
    (n = 0x1000 ∧ sub = 3) ∨ (n = 0x1502 ∧ (sub = 1 ∨ sub = 3)) ∨ (n = 0x1600 ∧ (sub = 1 ∨ sub = 11)) ∨
    (n = 0x1601 ∧ sub = 3) ∨ (n = 0x1602 ∧ (sub = 1 ∨ sub = 2 ∨ sub = 4 ∨ sub = 6)) ∨ (n = 0x1603 ∧ (sub = 1 ∨ sub = 3)) ∨
    (n = 0x1704 ∧ sub = 1) ∨ (idx = 0x0301 ∧ 1 ≤ sub ∧ sub ≤ 4) ∨ (idx = 0x0121 ∧ (sub = 2 ∨ sub = 3 ∨ sub = 4 ∨ sub = 6)) ∨
    (idx = 0x0300 ∧ sub = 2))

/-- The object exists, and the port reaches it (Table 15.9: 0x01, 0x02, 0x08, 0x03, 0x09); none where the request may go on. -/
def reachGate (s : State) (q : Req) (idx sub : Nat) (write : Bool) : Option Nat :=
  if !objIndex idx then some 0x01
  else match objFind idx sub with
    | none => some 0x02
    | some o =>
      if o.acc = .mgt ∧ q.port = .ahnec then some 0x08
      else if q.port = .mgmt ∧ o.acc ≠ .mgt ∧ !(if write then mgmtWrites idx sub else mgmtReads idx sub) then some 0x03
      else if s.hub.st = .standby ∧ !standbyServed idx sub then some 0x09
      else if dGet s 0x0121 1 ≠ 3 ∧ !romServed idx then some 0x09
      else none

/-- A write's access (R354): CON and RO are refused 0x03, RWI needs idle channels. -/
def writeGate (s : State) (q : Req) (idx sub : Nat) : Option Nat :=
  match reachGate s q idx sub true with
  | some e => some e
  | none => match objFind idx sub with
    | none => some 0x02
    | some o =>
      if o.acc = .con ∨ o.acc = .ro then some 0x03
      else if o.acc = .rwi ∧ !idleFor s idx then some 0x06
      else none

/-- A value of an object: its length and its range (R353; Table 15.9: 0x04, 0x05). -/
def valueGate (o : Obj) (bytes : List Byte) : Option Nat :=
  match o.type.bytes with
  | none => if o.type = .str then (if bytes.length ≤ 64 then none else some 0x04)
            else if bytes.length ≤ 4096 then none else some 0x04
  | some n =>
    if bytes.length ≠ n then some 0x04
    else if n ≤ 8 then
      let v := leNat bytes
      if v < o.lo ∨ o.hi < v ∨ v % o.mult ≠ 0 then some 0x05
      else if o.type = .f32 ∧ bits v 23 8 = 255 ∧ bits v 0 23 ≠ 0 then some 0x05
      else none
    else none

/-- A write that is a command: the gate answered, or the effect, which answers for itself. -/
def onWrite (s : State) (q : Req) (idx sub : Nat) (eff : State → State) : State :=
  if !portUp s q then s
  else match writeGate s q idx sub with
    | some e => answer s q e []
    | none => eff s

/-- A BOOL that is a command: true applies it, false does nothing, any other value is refused (R353). -/
def onTrue (s : State) (q : Req) (idx sub : Nat) (v : Byte) (eff : State → State) : State :=
  onWrite s q idx sub fun s =>
    if v = 0 then answer s q 0x00 [] else if v = 1 then eff s else answer s q 0x05 []

/-! ### Signed writes -/

/-- An owner key slot; all zero where empty (R379). -/
def ownerKey (s : State) (n : Nat) : List Byte :=
  leBytes 64 (dGet s 0x0301 n)

/-- The owner keys registered. -/
def ownerKeys (s : State) : List (List Byte) :=
  ((List.range 4).map fun n => ownerKey s (n + 1)).filter fun k => !allZero k

/-- The device serial's 16 bytes (Table 16.5). -/
def serialBytes : List Byte :=
  beBytes 16 Config.serial.toNat

/-- The write record of Table 17.8. -/
def writeRecord (s : State) (idx sub : Nat) (value : List Byte) : List Byte :=
  [0x56, 0x4B, 0x57, 0x31] ++ serialBytes ++ beBytes 32 s.hub.nonce.toNat ++ leBytes 8 s.hub.rwsCount ++ leBytes 2 idx ++
    leBytes 1 sub ++ [0] ++ leBytes 4 value.length ++ value

/-- The signature over a write record verifies under one of the keys (R380). -/
def signedBy (s : State) (idx sub : Nat) (value sig : List Byte) (keys : List (List Byte)) : Bool :=
  keys.any fun k => sm2Verify k (sm3 (writeRecord s idx sub value)) sig

/-- An accepted signed write advances SEC_RWS_COUNT (R380). -/
def countSigned (s : State) : State :=
  updHub s fun h => { h with rwsCount := h.rwsCount + 1 }

end Sys2Proof.Machine
end

