-- ==== Sys2Proof/Machine/Journal.lean ====
section
/-! DEFINITION. Journal: the module journal and its bays (R281-R299): chaining, policy and buffer, segments, the cartridge link
and identification. Segment handling where the spec is silent: DESIGN CHOICE: assumption log, 9. -/

namespace Sys2Proof.Machine

/-! ### Bays -/

/-- A bay. -/
def getBay (s : State) (b : Nat) : Bay :=
  tabGet s.hub.bays Bay.reset b

/-- A bay changed. -/
def updBay (s : State) (b : Nat) (f : Bay → Bay) : State :=
  updHub s fun h => { h with bays := tabUpd h.bays Bay.reset b f }

/-- The journal changed. -/
def updJnl (s : State) (f : Journal → Journal) : State :=
  updHub s fun h => { h with jnl := f h.jnl }

/-- The bays that are ACTIVE. -/
def activeBays (s : State) : List Nat :=
  [0, 1].filter fun b => decide ((getBay s b).st = .active)

/-- BAY_STATE as read (Table 13.10). -/
def bayCode (b : BaySt) : Nat :=
  match b with
  | .empty => 0
  | .identifying => 1
  | .active => 2
  | .refused => 3
  | .ejecting => 4
  | .ejected => 5
  | .full => 6
  | .linkFault => 7

/-- The frame of a command (R295, Table 13.8): the header, the payload padded to whole words, CRC-32C over both. LENGTH counts the payload
without its padding (DEDUCED: assumption log, 110). -/
def bayFrame (c : BayCmd) : List Byte :=
  let b := leBytes 1 c.code ++ zeros 1 ++ leBytes 2 c.tag ++ leBytes 4 c.pay.length ++ leBytes 8 c.arg ++ padTo ((c.pay.length + 3) / 4 * 4) c.pay
  b ++ leBytes 4 (crc32c b)

/-- A frame put on a bay's link. -/
def bayEmit (s : State) (b : Nat) (c : BayCmd) : State :=
  updHub s fun h => { h with bayOut := h.bayOut ++ [(b, bayFrame c)] }

/-- A command goes out and is outstanding. -/
def baySend (s : State) (b : Nat) (c : BayCmd) : State :=
  bayEmit (updBay s b fun y => { y with cmds := y.cmds ++ [{ c with sent := s.hub.time }] }) b c

/-- A command to a cartridge under the next TAG; up to 16 are outstanding, and one more waits its turn (R295). -/
def bayCommand (s : State) (b code arg : Nat) (pay : List Byte) : State :=
  let y := getBay s b
  let c : BayCmd := ⟨y.nextTag, code, arg, pay, s.hub.time⟩
  let s := updBay s b fun y => { y with nextTag := (y.nextTag + 1) % 65536 }
  if y.cmds.length < 16 then baySend s b c else updBay s b fun y => { y with queued := y.queued ++ [c] }

/-- A command is answered, and the next that waited goes out. -/
def bayDone (s : State) (b tag : Nat) : State :=
  let s := updBay s b fun y => { y with cmds := y.cmds.filter fun x => x.tag != tag }
  match (getBay s b).queued with
  | [] => s
  | c :: r => baySend (updBay s b fun y => { y with queued := r }) b c

/-- The cartridge's end once the commands given have been executed. -/
def bayEnd (y : Bay) : Nat :=
  y.written + (((y.cmds ++ y.queued).filter fun c => c.code == 0x10).map fun c => c.pay.length).sum

/-! ### Chaining -/

/-- The bytes of a record with SEQ and PREV in its header (Table 13.1). -/
def recordBytes (seq : Nat) (prev : BitVec 256) (r : JBody) : List Byte :=
  leBytes 1 r.type ++ leBytes 1 r.src ++ zeros 2 ++ leBytes 4 (64 + r.body.length) ++ leBytes 8 seq ++ leBytes 4 r.tag ++
    leBytes 2 r.job ++ zeros 2 ++ leBytes 8 r.ft ++ beBytes 32 prev.toNat ++ r.body

/-- A record takes its place in the chain (R281). -/
def jnlChain (s : State) (r : JBody) : JRec × State :=
  let b := recordBytes s.hub.jnl.seq s.hub.jnl.prev r
  (⟨s.hub.jnl.seq, b, r.step, []⟩, updJnl s fun j => { j with seq := j.seq + 1, prev := sm3N b })

/-- A hub record's frame: hub time, no job. -/
def hubRecord (s : State) (type : Nat) (body : List Byte) : JBody :=
  ⟨type, 0xFF, 0, 0xFFFF, hubTime s, body, none⟩

/-- A STEP record accepted: its commit goes on (Table 12.1, order 4). -/
def acceptStep (s : State) (r : JRec) : State :=
  match r.step with
  | none => s
  | some (ch, j, n) => updCh s ch fun k => { k with jobs := tabMap k.jobs fun j' v =>
      if j' = j then { v with commits := v.commits.map fun c => if c.step = n then { c with accepted := true, seq := r.seq } else c }
      else v }

/-- The pieces of a record that APPEND carries, at most 65,536 bytes each (R295). -/
def appendPieces (b : List Byte) : List (List Byte) :=
  chunksOf 65536 (b.length / 65536 + 1) b

/-- One bay's APPENDs of a record, with the keys of their answers. -/
def bayAppend (s : State) (b : Nat) (bytes : List Byte) : List Nat × State :=
  (appendPieces bytes).foldl (fun (ks, s) p =>
    (ks ++ [65536 * b + (getBay s b).nextTag], bayCommand s b 0x10 (bayEnd (getBay s b)) p)) ([], s)

/-- A chained record appended to every ACTIVE bay (R289, R292). -/
def jnlAppend (s : State) (r : JRec) : State :=
  let (ks, s) := (activeBays s).foldl (fun (ks, s) b => let (k, s) := bayAppend s b r.bytes; (ks ++ k, s)) (([] : List Nat), s)
  updJnl s fun j => { j with
    pend := j.pend ++ [{ r with waits := ks }]
    segBytes := j.segBytes ++ r.bytes
    segRecs := j.segRecs + 1 }

/-- Capacity of the journal buffer: the 256 MiB region of each channel that is not Resetting (R289). -/
def bufCap (s : State) : Nat :=
  268435456 * (([0, 1, 2, 3].filter fun n => decide ((getCh s n).st ≠ .resetting)).length)

/-- One discarded record more: in the last group, where that has its cause, else in a group of its own (Table 13.5). -/
def gapAdd (time steps cause : Nat) (gs : List Gap) : List Gap :=
  match gs.getLast? with
  | some g => if g.cause = cause then gs.dropLast ++ [{ g with n := g.n + 1, steps := g.steps + steps, until_ := time }]
    else gs ++ [⟨1, steps, time, time, cause⟩]
  | none => [⟨1, steps, time, time, cause⟩]

/-- A record discarded (R289, Table 13.5): the chain runs through it, the next GAP counts it, and under policy 2 a STEP record is accepted. -/
def jnlDiscard (s : State) (r : JBody) (cause : Nat) : State :=
  let (c, s) := jnlChain s r
  let s := dAdd (updJnl s fun j => { j with gaps := gapAdd (hubTime s) (b2n (r.type == 2)) cause j.gaps }) 0x0400 11 64 1
  if cause = 0 then acceptStep s c else s

/-- The bytes of a record. -/
def JBody.size (r : JBody) : Nat :=
  64 + r.body.length

/-- The channel whose region holds a byte of the ring: the regions of the channels that are not Resetting in turn, 256 MiB each (R289;
DESIGN CHOICE: assumption log, 110). -/
def ringRegion (s : State) (pos : Nat) : Option Nat :=
  let chans := [0, 1, 2, 3].filter fun n => decide ((getCh s n).st ≠ .resetting)
  chans[pos / 268435456 % max 1 chans.length]?

/-- Bytes of the journal buffer are accessed: the controllers of their regions leave self-refresh, and their idle time starts anew (R193). -/
def bufTouch (s : State) (pos len : Nat) : State :=
  let hit := [ringRegion s pos, ringRegion s (pos + len - 1)]
  { s with ch := tabMap s.ch fun n k => if hit.contains (some n) then { k with selfRef := false, refIdle := s.hub.time } else k }

/-- A record put into the buffer. -/
def bufPut (s : State) (r : JBody) : State :=
  bufTouch (updJnl s fun j => { j with buffer := j.buffer ++ [r], bufUsed := j.bufUsed + r.size, bufAt := j.bufAt + r.size }) s.hub.jnl.bufAt r.size

/-- The SEQ that a record accepted into the buffer will have, as things stand: the OPEN of the next segment, the GAPs due and the records
before it come first (Table 15.8, STEP_COMMIT; DESIGN CHOICE: assumption log, 9). -/
def bufSeq (j : Journal) : Nat :=
  j.seq + 1 + j.gaps.length + j.buffer.length

/-- A record with no ACTIVE bay to take it (Table 13.6). -/
def jnlPolicy (s : State) (r : JBody) : State :=
  let fits := decide (s.hub.jnl.bufUsed + r.size ≤ bufCap s)
  match dGet s 0x0400 1, r.step.isSome with
  | 2, _ => jnlDiscard s r 0
  | 1, true =>
    if fits then acceptStep (bufPut s { r with step := none }) ⟨bufSeq s.hub.jnl, [], r.step, []⟩
    else updJnl s fun j => { j with held := j.held ++ [r] }
  | _, true => updJnl s fun j => { j with held := j.held ++ [r] }
  | _, false => if fits then bufPut s r else jnlDiscard s r 2

/-- A record handed to the hub, before the segment's limit is tested (R289). -/
def jnlPut (s : State) (r : JBody) : State :=
  if s.hub.jnl.isOpen ∧ activeBays s ≠ [] then
    let (c, s) := jnlChain s r
    jnlAppend s c
  else if s.hub.jnl.sealing ∨ s.hub.jnl.recovering then updJnl s fun j => { j with held := j.held ++ [r] }
  else jnlPolicy s r

/-- The segment sealed (R286): SEAL, signed by the device key, and a receipt asked of every ACTIVE bay. -/
def jnlSeal (s : State) : State :=
  if !s.hub.jnl.isOpen then s
  else
    let j := s.hub.jnl
    let hash := sm3 j.segBytes
    let r := hubRecord s 7 (leBytes 8 j.segRecs ++ leBytes 8 j.segBytes.length ++ hash)
    let draft := (recordBytes j.seq j.prev r).take 64 ++ r.body
    let draft := draft.take 4 ++ leBytes 4 192 ++ draft.drop 8
    let (n, s) := drawFree s
    let sig := beBytes 64 (Config.deviceSig n (sm3 draft)).toNat
    let (c, s) := jnlChain s { r with body := r.body ++ sig ++ zeros 16 }
    let s := dSet s 0x0400 12 (leNat (sm3 c.bytes))
    let len := j.segBytes.length
    let s := (activeBays s).foldl (fun s b => bayCommand s b 0x11 (tabGet s.hub.jnl.segStart 0 b) (leBytes 8 len ++ hash)) (jnlAppend s c)
    updJnl s fun j => { j with isOpen := false, sealing := activeBays s ≠ [] }

/-- The byte limit of a segment tested after a record (R286, R287). -/
def jnlLimit (s : State) : State :=
  if s.hub.jnl.isOpen ∧ dGet s 0x0400 7 ≤ s.hub.jnl.segBytes.length then jnlSeal s else s

/-- A record handed to the hub (R289). -/
def jnlHand (s : State) (r : JBody) : State :=
  jnlLimit (jnlPut s r)

/-- A hub record handed over. -/
def jnlHub (s : State) (type : Nat) (body : List Byte) : State :=
  jnlHand s (hubRecord s type body)

/-- A bay enters a state: its BAY record and its event (Table 13.5, Table 15.8). -/
def bayEnter (s : State) (b : Nat) (st : BaySt) : State :=
  let s := updBay s b fun y => { y with st := st, since := s.hub.time }
  let y := getBay s b
  let s := hubEvent s 0x0070 0xFFFF (leBytes 1 b ++ leBytes 1 (bayCode st) ++ [0])
  jnlHub s 6 (leBytes 1 b ++ leBytes 1 (bayCode st) ++ zeros 14 ++ padTo 16 y.serial ++ leBytes 8 y.written ++ zeros 24)

/-- A cartridge has no room for a further segment (R299). -/
def bayFull (s : State) (b : Nat) : Bool :=
  decide ((getBay s b).cap < bayEnd (getBay s b) + (2 * dGet s 0x0400 7 + 1048576))

/-- A record chained and appended in the open segment, and the segment's limit tested behind it (R281, R287). -/
def jnlAdd (s : State) (r : JBody) : State :=
  let (c, s) := jnlChain s r
  jnlLimit (jnlAppend s c)

/-- The buffered and then the held records appended in order while a segment is open (R289); at its limit the rest waits for the next. -/
def jnlFlush : Nat → State → State
  | 0, s => s
  | n + 1, s =>
    if !s.hub.jnl.isOpen then s
    else match s.hub.jnl.buffer, s.hub.jnl.held with
      | r :: rest, _ =>
        let j := s.hub.jnl
        jnlFlush n (jnlAdd (bufTouch (updJnl s fun j => { j with buffer := rest, bufUsed := j.bufUsed - r.size }) (j.bufAt - j.bufUsed) r.size) r)
      | [], r :: rest => jnlFlush n (jnlAdd (updJnl s fun j => { j with held := rest }) r)
      | [], [] => s

/-- The records that waited are handed over again under the policy where no bay is ACTIVE (Table 13.6). -/
def jnlRehand (s : State) : State :=
  let held := s.hub.jnl.held
  held.foldl (fun s r => jnlPut s r) (updJnl s fun j => { j with held := [] })

/-- A cartridge with no room for a segment is closed, and its bay is full (R299). -/
def bayClose (s : State) (b : Nat) : State :=
  bayEnter (bayCommand (updBay s b fun y => { y with ready := false }) b 0x31 0 []) b .full

/-- The body of a GAP record (Table 13.5). -/
def gapBody (g : Gap) : List Byte :=
  leBytes 8 g.n ++ leBytes 8 g.steps ++ leBytes 8 g.from_ ++ leBytes 8 g.until_ ++ leBytes 1 g.cause ++ zeros 31

/-- A GAP appended behind OPEN, and its event. -/
def gapWrite (s : State) (g : Gap) : State :=
  let (c, s) := jnlChain s (hubRecord s 5 (gapBody g))
  hubEvent (jnlAppend s c) 0x0071 0xFFFF (leBytes 8 g.n)

/-- The first certificate of a DER chain: its header's length says where it ends (R378). -/
def leafCert (b : List Byte) : List Byte :=
  let n := fld b 1 1
  b.take (if n < 128 then 2 + n else 2 + (n - 128) + beNat (slice b 2 (n - 128)))

/-- The next segment opened (R286, R288, R292, R298): bays that passed identification become ACTIVE, OPEN is written with the
receipts of the last segment, then the GAPs of what was discarded, then the records that waited. -/
def jnlOpen (s : State) : State :=
  let s := ([0, 1].filter fun b => (getBay s b).ready && bayFull s b).foldl bayClose s
  let fresh := [0, 1].filter fun b => (getBay s b).ready
  let s := fresh.foldl (fun s b => updBay s b fun y => { y with st := .active, ready := false, since := s.hub.time }) s
  if activeBays s = [] then jnlRehand (updJnl s fun j => { j with sealing := false })
  else
    let j := s.hub.jnl
    let s := updJnl s fun j => { j with
      isOpen := true, sealing := false, segRecs := 0, segBytes := [], openAt := s.hub.time
      segStart := (activeBays s).map fun b => (b, bayEnd (getBay s b)) }
    let body := serialBytes ++ leBytes 8 j.seg ++ leBytes 4 j.epoch ++ zeros 4 ++ sm3 (leafCert Config.certChain) ++
      beBytes 64 (tabGet j.receipts 0 0).toNat ++ beBytes 64 (tabGet j.receipts 0 1).toNat
    let (c, s) := jnlChain s (hubRecord s 0 body)
    let gaps := s.hub.jnl.gaps
    let s := gaps.foldl gapWrite (updJnl (jnlAppend s c) fun j => { j with receipts := [], gaps := [] })
    let s := jnlFlush (s.hub.jnl.buffer.length + s.hub.jnl.held.length + 1) s
    let s := fresh.foldl (fun s b => bayEnter s b .active) s
    (activeBays s).foldl (fun s b =>
      if 9 * (getBay s b).cap ≤ 10 * bayEnd (getBay s b) then hubEvent s 0x0070 0xFFFF (leBytes 1 b ++ [2] ++ [2]) else s) s

/-- Every receipt asked for has come: the ejecting and the full bays leave, and the next segment opens (R294, R299). -/
def jnlSealed (s : State) : State :=
  if !s.hub.jnl.sealing ∨ [0, 1].any (fun b => ((getBay s b).cmds ++ (getBay s b).queued).any fun c => c.code == 0x11) then s
  else
    let s := updJnl s fun j => { j with seg := j.seg + 1, sealing := true }
    let s := (activeBays s).foldl (fun s b => if bayFull s b then bayClose s b else s) s
    let s := [0, 1].foldl (fun s b => if (getBay s b).st = .ejecting then bayEnter s b .ejected else s) s
    jnlOpen s

/-- A segment opened if none is and a bay is ready for it (R292). -/
def jnlJoin (s : State) : State :=
  if s.hub.jnl.isOpen ∨ s.hub.jnl.sealing ∨ s.hub.jnl.recovering then s
  else if [0, 1].any (fun b => (getBay s b).ready) then jnlOpen s
  else s

/-- Recovery has ended when no bay is being identified: what was held goes on (R288). -/
def jnlRecovered (s : State) : State :=
  if s.hub.jnl.recovering ∧ [0, 1].all (fun b => (getBay s b).st ≠ .identifying ∨ (getBay s b).ready) then
    let s := updJnl s fun j => { j with recovering := false }
    if [0, 1].any (fun b => (getBay s b).ready) then jnlOpen s else jnlRehand s
  else jnlJoin s

/-- Records that wait on no bay any more are accepted; with the mirror on, their bytes go out (R289, R293, R349, R350). -/
def jnlSettle : Nat → State → State
  | 0, s => s
  | n + 1, s =>
    match s.hub.jnl.pend with
    | [] => s
    | r :: rest =>
      if r.waits ≠ [] then s
      else
        let s := acceptStep (updJnl s fun j => { j with pend := rest }) r
        let s := if dGet s 0x0400 13 ≠ 1 then s
          else (chunksOf 8192 (r.bytes.length / 8192 + 1) r.bytes).foldl (fun s p =>
            let f : Frame := ⟨5, tabGet s.hub.txCseq 0 5, 1, 0, 0xFFFF, BitVec.ofNat 64 s.hub.jnl.mirrorN, p⟩
            let s' := updJnl s fun j => { j with mirrorN := j.mirrorN + p.length }
            match ahnPick s f with
            | some l => dAdd (updHub (updAhn s' l fun a => ahnTx s.hub.time a f)
                fun h => { h with txCseq := tabSet h.txCseq 5 ((f.cseq + 1) % 4294967296) }) (0x0110 + l) 7 64 1
            | none => dAdd s' 0x0100 3 64 p.length) s
        jnlSettle n s

/-- A READ's bytes answer the dictionary request that waits for them (Table 13.10, BAY_READ_DATA). -/
def bayAnswer (s : State) (b tag : Nat) (bytes : List Byte) : State :=
  let rs := (getBay s b).reads
  let s := updBay s b fun y => { y with reads := y.reads.filter fun r => r.1 != tag }
  (rs.filter fun r => r.1 == tag).foldl (fun s r => answer s r.2 0x00 bytes) s

/-- The requests that wait for a READ of a bay that gives no more answers. -/
def bayUnread (s : State) (b : Nat) : State :=
  (getBay s b).reads.foldl (fun s r => answer s r.2 0x09 []) (updBay s b fun y => { y with reads := [] })

/-- A chained record as it was handed over. -/
def JRec.handed (r : JRec) : JBody :=
  let b := r.bytes
  ⟨fld b 0 1, fld b 1 1, fld b 16 4, fld b 20 2, fld b 24 8, b.drop 64, r.step⟩

/-- The last ACTIVE bay has left: the segment ends without a SEAL. The records that no bay made durable leave the chain again, and those of
the segment's own, OPEN and SEAL, are gone; the rest is handed over anew under the policy (Table 13.6, Table 13.7; DESIGN CHOICE: assumption
log, 9). -/
def jnlAlone (s : State) : State :=
  let lost := s.hub.jnl.pend
  jnlRehand (updJnl s fun j => { j with
    seq := (lost.map (·.seq)).headD j.seq
    prev := (lost.map fun r => BitVec.ofNat 256 (beNat (slice r.bytes 32 32))).headD j.prev
    pend := []
    held := ((lost.map JRec.handed).filter fun r => r.type != 0 && r.type != 7) ++ j.held
    seg := if j.isOpen ∨ j.sealing then j.seg + 1 else j.seg
    isOpen := false
    sealing := false })

/-- A bay that can take no more: its APPENDs count as gone, and records left with no bay fall under the policy (Table 13.7). -/
def bayDrop (s : State) (b : Nat) : State :=
  let s := updBay (bayUnread s b) b fun y => { y with cmds := [], queued := [], ready := false }
  if activeBays s = [] then jnlAlone s
  else
    let s := updJnl s fun j => { j with pend := j.pend.map fun r => { r with waits := r.waits.filter fun k => k / 65536 != b } }
    jnlSettle (s.hub.jnl.pend.length + 1) s

/-- The sealed segment at the end of a cartridge's log for this device: the OPEN's segment number and epoch, the SEAL's SEQ and hash
(R288), walking records from the OPEN; none where the SEAL has not been read yet. -/
def tailSeal : Nat → List Byte → Option (Nat × BitVec 256)
  | 0, _ => none
  | n + 1, b =>
    let len := fld b 4 4
    if b.length < 64 ∨ len < 64 ∨ b.length < len then none
    else if fld b 0 1 = 7 then some (fld b 8 8, sm3N (b.take len))
    else tailSeal n (b.drop len)

/-- The journal continued from a cartridge's tail, if it names a later segment than the one known (R288). -/
def tailApply (s : State) (b : List Byte) (fin : Nat × BitVec 256) : State :=
  let j := s.hub.jnl
  if s.hub.jnl.recovering ∧ j.seg ≤ fld b 80 8 then
    updJnl s fun j => { j with seg := fld b 80 8 + 1, epoch := fld b 88 4 + 1, seq := fin.1 + 1, prev := fin.2 }
  else s

/-- A bay that passed its identification (R297); one that joins in service waits for the next OPEN (R292). -/
def bayPass (s : State) (b : Nat) : State :=
  jnlRecovered (updBay s b fun y => { y with ready := true, tail := [] })

/-- A cartridge refused is never written (R297). -/
def bayRefuse (s : State) (b : Nat) : State :=
  jnlRecovered (bayEnter (updBay s b fun y => { y with ready := false, cmds := [], queued := [] }) b .refused)

/-- The link of a bay has failed (R295). -/
def bayFault (s : State) (b : Nat) : State :=
  jnlRecovered (jnlSealed (bayEnter (bayDrop (updBay s b fun y => { y with st := .linkFault }) b) b .linkFault))

/-- A frame that came with a bad CRC (R295, R296): sent again with the same TAG, and counted; 16 within one second lose the link. -/
def bayCrc (s : State) (b : Nat) (c : BayCmd) : State :=
  let now := s.hub.time
  let times := (now :: (getBay s b).crcAt).take 16
  let s := updBay (dSat s (0x0401 + b) 9 1) b fun y => { y with
    crcAt := times, cmds := y.cmds.map fun x => if x.tag = c.tag then { x with sent := now } else x }
  if 16 ≤ times.length ∧ now ≤ times.getLastD 0 + 1000000000 then bayFault s b else bayEmit s b c

/-- A READ of a cartridge's tail: what the log holds from an offset, at most 65,536 bytes (R288); nothing more to read ends the recovery. -/
def tailRead (s : State) (b off : Nat) : State :=
  let left := (getBay s b).written - off
  if left = 0 then bayPass s b else bayCommand s b 0x20 off (leBytes 4 (min 65536 left))

/-! ### Commands -/

/-- JNL_SEAL_NOW (R286). -/
def execJnlSealNow (q : Req) (v : Byte) (s : State) : Host.Outcome State Fault Refusal :=
  .next (onTrue s q 0x0400 9 v fun s => answer (jnlSealed (jnlSeal s)) q 0x00 [])

/-- SEGMENT_TIME_LIMIT (R286). -/
def execSegmentTimeLimit (s : State) : Host.Outcome State Fault Refusal :=
  .next (jnlSealed (jnlSeal s))

/-- BAY_EJECT (R294): the segment is sealed and its receipt obtained, then the bay is ejected. -/
def execBayEject (q : Req) (b : BitVec 1) (v : Byte) (s : State) : Host.Outcome State Fault Refusal :=
  .next (onTrue s q (0x0401 + b.toNat) 5 v fun s =>
    if (getBay s b.toNat).st = .active then
      let s := jnlSeal s
      answer (jnlSealed (bayEnter s b.toNat .ejecting)) q 0x00 []
    else if (getBay s b.toNat).st = .empty ∨ (getBay s b.toNat).st = .ejecting ∨ (getBay s b.toNat).st = .ejected then
      answer s q 0x00 []
    else answer (jnlRecovered (bayEnter (bayDrop s b.toNat) b.toNat .ejected)) q 0x00 [])

/-- A cartridge is identified (R297): the link trains and IDENTIFY and CERT are sent. -/
def bayIdentify (s : State) (b : Nat) : State :=
  let s := dSet (updBay s b fun _ => Bay.reset) (0x0401 + b) 9 0
  bayCommand (bayCommand (bayEnter s b .identifying) b 0x01 0 []) b 0x02 0 []

/-- CARTRIDGE_INSERTED (R297): identified at once, or once the hub has power. -/
def execCartridgeInserted (b : BitVec 1) (s : State) : Host.Outcome State Fault Refusal :=
  if (getBay s b.toNat).st ≠ .empty then .next s
  else if s.hub.st = .ready ∨ s.hub.st = .serving then .next (bayIdentify s b.toNat)
  else .next (updBay s b.toNat fun y => { y with st := .identifying })

/-- CARTRIDGE_REMOVED (R294): without an eject, a BAY record with state 0 and a new segment at once. -/
def execCartridgeRemoved (b : BitVec 1) (s : State) : Host.Outcome State Fault Refusal :=
  let n := b.toNat
  if !(decide (s.hub.st = .ready ∨ s.hub.st = .serving)) then .next (updBay s n fun _ => Bay.reset)
  else match (getBay s n).st with
  | .empty => .next s
  | .active =>
    let s := bayDrop (updBay (bayUnread s n) n fun _ => Bay.reset) n
    .next (jnlRecovered (jnlSealed (jnlSeal (bayEnter s n .empty))))
  | _ =>
    let s := bayDrop (updBay (bayUnread s n) n fun _ => Bay.reset) n
    .next (jnlRecovered (jnlSealed (bayEnter s n .empty)))

/-- APPEND_RESPONSE (R296): the record is durable in the bay, or the frame is sent again, or the bay faults. -/
def execAppendResponse (b : BitVec 1) (tag : BitVec 16) (status : Byte) (s : State) : Host.Outcome State Fault Refusal :=
  let n := b.toNat
  match (getBay s n).cmds.find? fun c => c.tag == tag.toNat && c.code == 0x10 with
  | none => .next s
  | some c =>
    if status = 0 then
      let s := updBay (bayDone s n c.tag) n fun y => { y with written := y.written + c.pay.length }
      let s := updJnl s fun j => { j with pend := j.pend.map fun r => { r with waits := r.waits.filter fun k => k != 65536 * n + c.tag } }
      .next (jnlSettle (s.hub.jnl.pend.length + 1) s)
    else if status = 1 then .next (bayCrc s n c)
    else .next (bayFault s n)

/-- CARTRIDGE_RESPONSE (R295-R297): each answer taken by its command's code. -/
def execCartridgeResponse (b : BitVec 1) (tag : BitVec 16) (status : Byte) (bytes : List Byte) (s : State) :
    Host.Outcome State Fault Refusal :=
  let n := b.toNat
  match (getBay s n).cmds.find? fun c => c.tag == tag.toNat && c.code != 0x10 with
  | none => .next s
  | some c =>
    if status = 1 then .next (bayCrc s n c)
    else
      let s := bayDone s n c.tag
      match c.code with
      | 0x01 =>
        if status = 0 ∧ bytes.length = 128 ∧ fld bytes 32 1 = 0 then
          .next (updBay s n fun y => { y with
            serial := slice bytes 0 16, cap := fld bytes 16 8, written := fld bytes 24 8
            key := BitVec.ofNat 512 (beNat (slice bytes 64 64)) })
        else .next (bayRefuse s n)
      | 0x02 =>
        if status = 0 ∧ bytes.length = 4096 then
          let s := updBay s n fun y => { y with cert := y.cert ++ bytes }
          .next (bayCommand s n 0x02 (getBay s n).cert.length [])
        else if status = 0 ∨ status = 6 then
          let s := updBay s n fun y => { y with cert := y.cert ++ bytes }
          if Config.chainOk (getBay s n).cert ∧ Config.chainKey (getBay s n).cert = (getBay s n).key then
            let (k, s) := drawFree s
            let s := updBay s n fun y => { y with nonce := Config.entropy k }
            .next (bayCommand s n 0x03 0 (beBytes 32 (getBay s n).nonce.toNat))
          else .next (bayRefuse s n)
        else .next (bayRefuse s n)
      | 0x03 =>
        let y := getBay s n
        if status = 0 ∧ sm2Verify (beBytes 64 y.key.toNat) (sm3 (beBytes 32 y.nonce.toNat ++ y.serial ++ leBytes 8 y.written)) bytes then
          if s.hub.jnl.recovering then .next (bayCommand s n 0x21 0 serialBytes) else .next (bayPass s n)
        else .next (bayRefuse s n)
      | 0x21 =>
        if status = 0 ∧ bytes.length = 8 ∧ leNat bytes ≠ 2 ^ 64 - 1 then .next (tailRead s n (leNat bytes))
        else .next (bayPass s n)
      | 0x20 =>
        if (getBay s n).reads.any fun r => r.1 == c.tag then .next (bayAnswer s n c.tag (if status = 0 then bytes else []))
        else
          let s := updBay s n fun y => { y with tail := y.tail ++ bytes }
          let t := (getBay s n).tail
          match tailSeal (t.length / 64 + 1) t with
          | some fin => .next (bayPass (tailApply s t fin) n)
          | none => if status = 0 ∧ bytes ≠ [] then .next (tailRead s n (c.arg + bytes.length)) else .next (bayPass s n)
      | 0x11 =>
        if status = 0 then
          let s := dSet s (0x0401 + n) 8 (leNat bytes)
          let s := updJnl s fun j => { j with receipts := tabSet j.receipts n (BitVec.ofNat 512 (beNat (padTo 64 bytes))) }
          .next (jnlSealed (updBay s n fun y => { y with receipt := BitVec.ofNat 512 (beNat (padTo 64 bytes)) }))
        else .next (bayFault s n)
      | _ => .next s

/-- CARTRIDGE_LINK_TIMEOUT (R295): BAY_STATE 7. -/
def execCartridgeLinkTimeout (b : BitVec 1) (s : State) : Host.Outcome State Fault Refusal :=
  match (getBay s b.toNat).st with
  | .empty => .next s
  | .linkFault => .next s
  | _ => .next (bayFault s b.toNat)

/-- SINGLE_BAY_WARNING (R289): exactly one bay ACTIVE. -/
def execSingleBayWarning (s : State) : Host.Outcome State Fault Refusal :=
  match activeBays s with
  | [b] => .next (hubEvent (updJnl s fun j => { j with lastWarn := s.hub.time }) 0x0070 0xFFFF (leBytes 1 b ++ [2] ++ [1]))
  | _ => .next s

end Sys2Proof.Machine
end

