-- ==== Sys2Proof/Machine/Links.lean ====
section
/-! DEFINITION. Links: Ixric and drawbar ports (R303-R329): flits, credits, replay, packets, routes and failover, port states,
link control packets, and Fabric Time on the link (R223-R225, R317). -/

namespace Sys2Proof.Machine

/-! ### Ports -/

/-- A port of a channel. -/
def getPort (k : Channel) (p : Nat) : LinkPort :=
  tabGet k.ports LinkPort.reset p

/-- A port changed. -/
def updPort (s : State) (ch p : Nat) (f : LinkPort → LinkPort) : State :=
  updCh s ch fun k => { k with ports := tabUpd k.ports LinkPort.reset p f }

/-- The dictionary index of a port's objects (R329). -/
def lnkIdx (ch p : Nat) : Nat :=
  cIdx ch (0x410 + p)

/-- The lane with credits to return. -/
def retLane (lp : LinkPort) : Nat :=
  ((List.range 4).find? fun v => decide (tabGet lp.retCred 0 v ≠ 0)).getD 0

/-- A flit sent: the header carries ACK, NAK and the credits returned (Table 14.3); flits are counted since the last of lane 0 (R311). -/
def portEmit (external : Bool) (type vl seq : Nat) (isFirst : Bool) (pay : List Byte) (lp : LinkPort) : LinkPort :=
  let c := retLane lp
  let h := flitHeader type vl seq lp.rxSeq lp.nak isFirst c (min (tabGet lp.retCred 0 c) 1023)
  { lp with
    out := lp.out ++ [flitBytes external h pay]
    nak := false
    vl0Run := if type = 1 ∧ vl = 0 then 0 else min 7 (lp.vl0Run + 1)
    retCred := tabSet lp.retCred c (tabGet lp.retCred 0 c - 1023) }

/-- The flits of a packet of `n` bytes with its header (R312). -/
def flitsOf (n : Nat) : Nat :=
  (n + 231) / 232

/-- The waiting packet whose flit goes next (R311), of those that stand at the port: a VL0 flit unless one of the last seven was, the
packet in progress, then lanes 1 to 3 in rotation. -/
def portPick (cycle : Nat) (lp : LinkPort) : Option TxPkt :=
  let ok : TxPkt → Bool := fun t => decide (0 < tabGet lp.credits 0 t.vl)
  let heads := ([0, lp.lane, lp.lane % 3 + 1, (lp.lane + 1) % 3 + 1].filterMap fun v =>
    lp.tx.find? fun t => t.vl == v && (t.done != 0 || decide (t.at_ ≤ cycle))).filter ok
  let zero := heads.find? fun t => t.vl == 0
  let open_ := heads.find? fun t => t.vl != 0 && t.done != 0
  let fresh := heads.find? fun t => t.vl != 0
  if lp.vl0Run = 7 ∧ zero.isSome then zero else open_ <|> fresh

/-- The next flit of a waiting packet sent: a credit used, the flit kept for replay at an external port (R309, R310). -/
def portData (external : Bool) (time : Nat) (t : TxPkt) (lp : LinkPort) : LinkPort :=
  let pay := slice t.bytes (232 * t.done) 232
  let isFirst := t.done == 0
  let fin := decide (flitsOf t.bytes.length ≤ t.done + 1)
  let rest := lp.tx.erase t
  { portEmit external 1 t.vl lp.txSeq isFirst pay lp with
    txSeq := (lp.txSeq + 1) % 4096
    credits := tabUpd lp.credits 0 t.vl (· - 1)
    lane := if t.vl ≠ 0 ∧ isFirst then t.vl % 3 + 1 else lp.lane
    replay := if external then lp.replay ++ [⟨lp.txSeq, t.vl, isFirst, padTo 232 pay, 0⟩] else []
    lastAck := if lp.replay = [] then time else lp.lastAck
    sent := if external ∧ fin then lp.sent ++ [⟨t.vl, t.bytes, lp.txSeq, t.cut⟩] else lp.sent
    tx := if fin then rest else { t with done := t.done + 1 } :: rest }

/-- A drawbar port sends while a waiting packet holds a credit (R309, R311); where a lane-0 flit must wait its turn, flits without data
go between. -/
def portPump (time cycle : Nat) : Nat → LinkPort → LinkPort
  | 0, lp => lp
  | n + 1, lp => match portPick cycle lp with
    | some t => portPump time cycle n (portData false time t lp)
    | none =>
      if lp.tx.any fun t => t.vl == 0 && decide (0 < tabGet lp.credits 0 0) then portPump time cycle n (portEmit false 0 0 0 false [] lp)
      else lp

/-- The flits a drawbar port has sent travel to its other end, 48 cycles of the receiver, the sending cycle counted (R8, R20). -/
def drawbarFly (s : State) (ch p : Nat) : State :=
  if p < 4 then s
  else
    let out := (getPort (getCh s ch) p).out
    let s := updPort s ch p fun lp => { lp with out := [] }
    updPort s (p - 4) (4 + ch) fun lp => { lp with inFly := lp.inFly ++ out.map fun b => ((getCh s (p - 4)).cycles + 47, b) }

/-- The DATA flits among what a port has sent, LNK_TX_FLITS (Table 14.15). -/
def countFlits (s : State) (ch p n : Nat) : State :=
  if n = 0 then s else dAdd s (lnkIdx ch p) 12 64 n

/-- A drawbar port sends what it can; an external port sends at its flit boundaries. -/
def portFlush (s : State) (ch p : Nat) : State :=
  let lp := getPort (getCh s ch) p
  if lp.st ≠ .up ∨ p < 4 then s
  else
    let n := (lp.tx.map fun t => flitsOf t.bytes.length).sum
    let lp' := portPump s.hub.time (getCh s ch).cycles (8 * n) lp
    drawbarFly (countFlits (updPort s ch p fun _ => lp') ch p ((lp'.txSeq + 4096 - lp.txSeq) % 4096)) ch p

/-- A drawbar port answers with a flit without data, which carries what the header returns (R306); an external port's next flit does. The
other IDLE flits of a drawbar, which carry nothing, are not formed (DESIGN CHOICE: assumption log, 111). -/
def portIdle (s : State) (ch p : Nat) : State :=
  if p < 4 then s else drawbarFly (updPort s ch p (portEmit false 0 0 0 false [])) ch p

/-! ### Routes (R321-R323) -/

/-- The stored route entry of a destination (Table 14.10). -/
def routeEntry (k : Channel) (dev ch : Nat) : Nat :=
  (tabGet k.routes 0 (4 * dev + ch)).toNat

/-- A port is UP. -/
def portIsUp (k : Channel) (p : Nat) : Bool :=
  decide (p ≤ 7) && decide ((getPort k p).st = .up)

/-- A port is usable for a device: UP, and no REACH notice cuts the device off there. -/
def portUsable (k : Channel) (dev p : Nat) : Bool :=
  portIsUp k p && !k.cutOff.contains (dev, p)

/-- USEALT of an entry (R322). -/
def routeAlt (k : Channel) (dev e : Nat) : Bool :=
  decide (bits e 20 4 ≠ 15) && decide (bits e 24 4 ≤ 7) && !portUsable k dev (bits e 24 4)

/-- The port a packet takes: 8 for local; none where no port is usable (R322, R323). -/
def routePort (k : Channel) (dev ch : Nat) : Option Nat :=
  let e := routeEntry k dev ch
  if !bit e 31 then none
  else
    let p := if routeAlt k dev e then bits e 20 4 else bits e 24 4
    if p = 8 then some 8 else if portUsable k dev p then some p else none

/-- A route entry as read, with its two read-only bits (Table 14.10). -/
def routeRead (k : Channel) (n : Nat) : Nat :=
  let e := (tabGet k.routes 0 n).toNat
  let dead := bit e 29 && (routePort k (n / 4) (n % 4)).isNone
  e % 2 ^ 29 + b2n dead * 2 ^ 29 + b2n (bit e 31 && routeAlt k (n / 4) e) * 2 ^ 30 + b2n (bit e 31) * 2 ^ 31

/-! ### Packets (Tables 14.5, 14.6) -/

/-- The lane of a kind. -/
def kindVl (kind : Nat) : Nat :=
  match kind with
  | 0 => 3
  | 1 => 1
  | 2 => 2
  | 3 => 2
  | _ => 0

/-- A packet's header and body. -/
def pktBytes (kind ddev dch sdev sch slot arg : Nat) (body : List Byte) : List Byte :=
  leBytes 16 (kind * 2 ^ 124 + kindVl kind * 2 ^ 122 + ddev * 2 ^ 110 + dch * 2 ^ 108 + sdev * 2 ^ 96 + sch * 2 ^ 94 + slot * 2 ^ 78 +
    body.length * 2 ^ 64 + arg) ++ body

/-- The kind a packet's bytes name. -/
def pktKind (b : List Byte) : Nat :=
  bits (fld b 0 16) 124 4

/-- A packet's contents. -/
def pktOf (b : List Byte) : Pkt :=
  let h := fld b 0 16
  ⟨BitVec.ofNat 12 (bits h 110 12), BitVec.ofNat 2 (bits h 108 2), BitVec.ofNat 12 (bits h 96 12), BitVec.ofNat 2 (bits h 94 2),
    BitVec.ofNat 16 (bits h 78 16), BitVec.ofNat 64 (bits h 0 64), slice b 16 (bits h 64 13)⟩

/-- A packet put on the route of its destination, at an external port `die` cycles later (R316; whatever it is: DEDUCED: assumption log, 111),
with `cut` taken off its TIME; false where the route fails, which sets UNREACH (R323). -/
def sendRaw (s : State) (ch ddev dch die cut : Nat) (b : List Byte) : State × Bool :=
  let k := getCh s ch
  match routePort k ddev dch with
  | some 8 => (updCh s ch fun k => { k with pktIn := k.pktIn ++ [⟨pktKind b, k.cycles, 8, pktOf b⟩] }, true)
  | some p =>
    let t : TxPkt := ⟨kindVl (pktKind b), b, 0, k.cycles + (if p < 4 then die else 0), cut⟩
    (portFlush (updPort s ch p fun lp => { lp with tx := lp.tx ++ [t] }) ch p, true)
  | none => (updCh s ch fun k => { k with routes := tabUpd k.routes 0 (4 * ddev + dch) (· ||| 0x20000000#32) }, false)

/-- The event of a packet other than MSG that has no route (R323). -/
def unreachable (s : State) (ch ddev dch : Nat) : State :=
  chEvent s ch 0x0062 0xFFFF (leBytes 2 ddev ++ leBytes 1 dch)

/-- A packet other than MSG sent from a channel, or discarded with an event. -/
def sendPkt (s : State) (ch kind ddev dch slot arg : Nat) (body : List Byte) : State :=
  match sendRaw s ch ddev dch 12 0 (pktBytes kind ddev dch (ownDev s) ch slot arg body) with
  | (t, true) => t
  | (t, false) => unreachable t ch ddev dch

/-! ### Messages in packets (Table 7.2) -/

/-- The header of Table 7.2. -/
def msgHeader (m : Msg) : Nat :=
  m.type * 2 ^ 124 + m.src * 2 ^ 103 + m.dst * 2 ^ 82 + m.entry * 2 ^ 76 + m.gen * 2 ^ 68 + m.queue * 2 ^ 64 +
    (m.payload.length / 512 - 1) * 2 ^ 61 + m.sidx * 2 ^ 53 + m.seq * 2 ^ 37 + b2n m.digest.isSome * 2 ^ 36

/-- The body of a MSG packet: header, payload, digest. -/
def msgBody (m : Msg) : List Byte :=
  leBytes 16 (msgHeader m) ++ m.payload ++ (match m.digest with
    | some d => leBytes 8 d
    | none => [])

/-- The message a MSG packet's body spells. -/
def msgOf (b : List Byte) : Msg :=
  let h := fld b 0 16
  let type := bits h 124 4
  let n := if type = 0 then 512 * (bits h 61 3 + 1) else 0
  ⟨type, bits h 103 21, bits h 82 21, bits h 76 6, bits h 68 8, bits h 64 4, bits h 53 8, bits h 37 16,
    if bit h 36 then some (fld b (16 + n) 8) else none, padTo n (slice b 16 n), false, ⟨0, 0, 0, 0, 0⟩⟩

/-- The refusal of a message (R160): type 3 FULL, 4 CLOSED, source and destination exchanged. -/
def refusalOf (type : Nat) (m : Msg) : Msg :=
  { m with type := type, src := m.dst, dst := m.src, digest := none, payload := [] }

/-- The channel and core an address of Table 7.2 names. -/
def addrCore (a : Nat) : CoreId :=
  BitVec.ofNat 9 a

/-- An address of this module: device [20:9]. -/
def addrHere (s : State) (a : Nat) : Bool :=
  decide (a / 512 = ownDev s)

/-- A message in transit to a core of its own channel, `n` channel cycles away. -/
def flyLocal (s : State) (ch n : Nat) (same : Bool) (m : Msg) : State :=
  updCh s ch fun k => { k with msgFly := k.msgFly ++ [⟨k.cycles + n, same, none, m⟩] }

/-- A data message or a COUPLE marker whose route failed in a channel is refused CLOSED there (R323): the refusal returns to its sender,
in the slot of what it refuses. -/
def refuseUnrouted (s : State) (ch slot : Nat) (m : Msg) : State :=
  let r := refusalOf 4 m
  if 1 < m.type then s
  else if addrHere s m.src ∧ chOf (addrCore m.src) = ch then flyLocal s ch 32 true r
  else (sendRaw s ch (r.dst / 512) (chOf (addrCore r.dst)) 12 0
    (pktBytes 0 (r.dst / 512) (chOf (addrCore r.dst)) (ownDev s) ch slot 0 (msgBody r))).1

/-- A message, marker or refusal leaves a channel: over the die (entering by the end of cycle e + 31, a refusal 32 cycles later: R159,
R160), or as a MSG packet; a data message or a COUPLE marker whose route fails is refused CLOSED (R323). -/
def sendMsg (s : State) (ch slot : Nat) (m : Msg) : State :=
  let d := m.dst
  if addrHere s d ∧ chOf (addrCore d) = ch then flyLocal s ch (if m.type ≤ 2 then 31 else 32) true m
  else match sendRaw s ch (d / 512) (chOf (addrCore d)) 12 0 (pktBytes 0 (d / 512) (chOf (addrCore d)) (ownDev s) ch slot 0 (msgBody m)) with
    | (t, true) => t
    | (t, false) => refuseUnrouted t ch slot m

/-- A packet that arrives addressed to another channel is forwarded unchanged (R322); a BARRIER loses the measured delay of the link it
goes out on, `back` given back first of a link that failed it (R314). -/
def forwardPkt (s : State) (ch back : Nat) (b : List Byte) : State :=
  let p := pktOf b
  let port := routePort (getCh s ch) p.ddev.toNat p.dch.toNat
  let barrier := pktKind b = 6 ∧ fld p.body 0 1 = 1
  let time := fld p.body 24 8 + back
  let cut := match port with
    | some o => if barrier ∧ o < 8 then min time (dGet s (lnkIdx ch o) 6) else 0
    | none => 0
  let b := if barrier then b.take 40 ++ leBytes 8 (time - cut) else b
  match sendRaw s ch p.ddev.toNat p.dch.toNat 0 cut b with
  | (t, true) => t
  | (t, false) => if pktKind b = 0 then refuseUnrouted t ch p.slot.toNat (msgOf p.body) else unreachable t ch p.ddev.toNat p.dch.toNat

/-- A packet received whole: kept for the channel, 12 die cycles behind an external port (R316), or forwarded. -/
def takePkt (s : State) (ch p : Nat) (b : List Byte) : State :=
  let k := pktOf b
  if k.ddev.toNat = ownDev s ∧ k.dch.toNat = ch then
    updCh s ch fun c => { c with pktIn := c.pktIn ++ [⟨pktKind b, c.cycles + (if p < 4 then 12 else 0), p, k⟩] }
  else forwardPkt s ch 0 b

/-! ### Port states (Table 14.9) -/

/-- LNK_PSTATE as read. -/
def portCode (st : PortSt) : Nat :=
  match st with
  | .disabled => 0
  | .shutdown => 1
  | .restarting => 2
  | .down => 3
  | .training => 4
  | .up => 5
  | .fault => 6

/-- What a failed port had not got acknowledged goes out on the new routes, ahead of anything new, or is refused (R322, R323). -/
def portReroute (s : State) (ch p : Nat) : State :=
  let lp := getPort (getCh s ch) p
  let s := updPort s ch p fun lp => { lp with
    replay := [], sent := [], tx := [], rx := [], inFly := [], credits := [], retCred := [], nak := false, again := [], waits := [] }
  ((lp.sent.map fun t => (t.cut, t.bytes)) ++ lp.tx.map fun t => (t.cut, t.bytes)).foldl (fun s b => forwardPkt s ch b.1 b.2) s

/-- A port's state set; DOWN, FAULT and UP send an event (R318). -/
def portSet (s : State) (ch p : Nat) (st : PortSt) : State :=
  let s := updPort s ch p fun lp => { lp with st := st, since := s.hub.time }
  let s := if st = .down ∨ st = .fault then dSat s (lnkIdx ch p) 11 1 else s
  if st = .down ∨ st = .fault ∨ st = .up then chEvent s ch 0x0060 0xFFFF (leBytes 1 p ++ leBytes 1 (portCode st)) else s

/-- A port enters a state (R318). The other end of a drawbar that leaves UP sees its peer dark and goes DOWN (R319). -/
def portEnter (s : State) (ch p : Nat) (st : PortSt) : State :=
  let wasUp := (getPort (getCh s ch) p).st = .up
  let s := portSet s ch p st
  if wasUp ∧ st ≠ .up ∧ 4 ≤ p ∧ (getPort (getCh s (p - 4)) (4 + ch)).st = .up then
    portReroute (portSet s (p - 4) (4 + ch) .down) (p - 4) (4 + ch)
  else s

/-- A port that was UP fails. -/
def portFail (s : State) (ch p : Nat) (st : PortSt) : State :=
  portReroute (portEnter s ch p st) ch p

/-! ### Fabric Time on the link -/

/-- The channel's time source: none for the local oscillator (R224). -/
def ftPick (s : State) (ch : Nat) : Option Nat :=
  let k := getCh s ch
  if dGet s (cIdx ch 0x103) 8 = 1 then none
  else match cGet s ch 0x103 3 with
    | 0 =>
      ((List.range 8).filter fun p => portIsUp k p && decide (dGet s (lnkIdx ch p) 7 < 255)).foldl (fun best p =>
        match best with
        | none => some p
        | some b => if dGet s (lnkIdx ch p) 7 < dGet s (lnkIdx ch b) 7 then some p else best) none
    | 5 => none
    | n => if portIsUp k (n - 1) then some (n - 1) else none

/-- The stratum a channel advertises (R224). -/
def ftStratum (s : State) (ch : Nat) : Nat :=
  if dGet s (cIdx ch 0x103) 8 = 1 then 0
  else match ftPick s ch with
    | some p => min 255 (dGet s (lnkIdx ch p) 7 + 1)
    | none => 255

/-- FT_STATE set, with its event where the spec sends one (R224, R225). -/
def ftEnter (s : State) (ch st : Nat) (off : Int) : State :=
  let was := (getCh s ch).ftState
  let s := updCh s ch fun k => { k with ftState := st }
  if was ≠ st ∧ (st = 1 ∨ st = 3) then
    chEvent s ch 0x0014 0xFFFF (leBytes 1 st ++ zeros 3 ++ leBytes 4 (BitVec.ofInt 32 off).toNat)
  else s

/-- The time source is lost (R225): holdover begins. -/
def ftLost (s : State) (ch : Nat) : State :=
  let s := cSet (updCh s ch fun k => { k with source := none, slew := 0, ftLocks := 0 }) ch 0x103 6 (getCh s ch).ft
  ftEnter s ch 3 (BitVec.ofNat 32 (cGet s ch 0x103 4)).toInt

/-- The channel's time source taken anew (R224, R225, R317): a new one brings its link's delay and ends the slewing; the local
oscillator runs free; a source gone without another is lost. -/
def ftSelect (s : State) (ch : Nat) : State :=
  let src := ftPick s ch
  if src = (getCh s ch).source then s
  else match src with
    | some p => cSet (updCh s ch fun k => { k with source := some p, slew := 0, ftLocks := 0 }) ch 0x103 7 (dGet s (lnkIdx ch p) 6)
    | none =>
      if dGet s (cIdx ch 0x103) 8 = 1 ∨ cGet s ch 0x103 3 = 5 then
        ftEnter (updCh s ch fun k => { k with source := none, slew := 0, ftLocks := 0 }) ch 0 0
      else ftLost s ch

/-- A time stamp from a port (R224): the port's stratum is kept; at the time source the offset is taken and the count slewed,
stepped or found locked. Stamps are in 1/16 tick. -/
def ftStamp (s : State) (ch p stamp rx stratum : Nat) : State :=
  let s := ftSelect (dSet s (lnkIdx ch p) 7 stratum) ch
  if (getCh s ch).source ≠ some p then s
  else
    let off : Int := (stamp : Int) + dGet s (lnkIdx ch p) 6 - rx
    let s := cSet s ch 0x103 4 (BitVec.ofInt 32 off).toNat
    let loaded := !chIdle s ch
    if off.natAbs ≤ 16 then
      let s := updCh s ch fun k => { k with ftLocks := min 16 (k.ftLocks + 1), slew := 0 }
      if (getCh s ch).ftLocks = 16 then ftEnter s ch 2 off else if (getCh s ch).ftState = 2 then s else ftEnter s ch 1 off
    else if off.natAbs > 1024 ∧ !loaded then
      ftEnter (updCh s ch fun k => { k with ft := ((k.ft : Int) + off / 16).toNat, ftLocks := 0, slew := 0 }) ch 1 off
    else
      let s := updCh s ch fun k => { k with slew := if 0 < off then 1 else -1, ftLocks := 0 }
      if off.natAbs > 1024 then ftEnter s ch 1 off else if (getCh s ch).ftState = 2 then s else ftEnter s ch 1 off

/-- The stamp of now, in 1/16 tick. -/
def ftNow16 (s : State) (ch : Nat) : Nat :=
  16 * (getCh s ch).ft

/-- The flit boundary from which a port's next flit leaves (R311, R316): an external port sends one flit in 4 ns. -/
def slotTime (external : Bool) (time : Nat) (lp : LinkPort) : Nat :=
  if external then max ((time + 3) / 4 * 4) lp.slotAt else time

/-- An idle symbol sent (R306, R317): its stamp is the Fabric Time at which its first word leaves. ECHO flits go with the priority of TIME
(DEDUCED: assumption log, 111). -/
def emitSymbol (s : State) (ch p : Nat) (x : Symbol) (lp : LinkPort) : LinkPort :=
  let ext := decide (p < 4)
  let start := slotTime ext s.hub.time lp
  let now := ftNow16 s ch + 16 * (start - s.hub.time)
  let lp := { lp with slotAt := start + 4 }
  match x with
  | .time => portEmit ext 2 0 0 false (leBytes 8 now ++ leBytes 1 (ftStratum s ch) ++ leBytes 2 (ownDev s) ++ leBytes 1 (4 * ch + p % 4)) lp
  | .echoReq => portEmit ext 3 0 0 false (leBytes 8 now) { lp with echoT1 := some now, echoAt := (getCh s ch).ft }
  | .echoRsp t1 t2 => portEmit ext 4 0 0 false (leBytes 8 t1 ++ leBytes 8 t2 ++ leBytes 8 now) lp

/-- An idle symbol at its port: at the next flit boundary, behind a replay (R311). -/
def sendSymbol (s : State) (ch p : Nat) (x : Symbol) : State :=
  if (getPort (getCh s ch) p).again = [] then drawbarFly (updPort s ch p (emitSymbol s ch p x)) ch p
  else updPort s ch p fun lp => { lp with waits := lp.waits ++ [x] }

/-- A TIME flit sent on a port (R317). -/
def sendTime (s : State) (ch p : Nat) : State :=
  sendSymbol s ch p .time

/-- An ECHO_REQ sent on a port (R317). -/
def sendEcho (s : State) (ch p : Nat) : State :=
  sendSymbol s ch p .echoReq

/-- An ECHO_RSP sent on a port (R317). -/
def answerEcho (s : State) (ch p t1 t2 : Nat) : State :=
  sendSymbol s ch p (.echoRsp t1 t2)

/-- The one-way delay measured (R317), shown in LNK_DELAY and, at the time source, in FT_LINK_DELAY. -/
def takeEcho (s : State) (ch p t1 t2 t3 t4 : Nat) : State :=
  if (getPort (getCh s ch) p).echoT1 ≠ some t1 then s
  else
    let d := ((t4 + t2) - (t1 + t3)) / 2 % 2 ^ 32
    let s := dSet (updPort s ch p fun lp => { lp with echoT1 := none }) (lnkIdx ch p) 6 d
    if (getCh s ch).source = some p then cSet s ch 0x103 7 d else s

/-! ### Receiving a flit -/

/-- A NAK at a port: every DATA flit not acknowledged is to be sent again, from the start (R310). -/
def portReplay (lp : LinkPort) : LinkPort :=
  { lp with again := lp.replay.map (·.seq) }

/-- ACK applied: the flits it covers leave the replay buffer (R310). -/
def portAck (time ack : Nat) (lp : LinkPort) : LinkPort :=
  if lp.replay.any fun f => f.seq == ack then
    let n := (lp.replay.takeWhile fun f => f.seq != ack).length + 1
    let gone := (lp.replay.take n).map (·.seq)
    { lp with
      replay := lp.replay.drop n, sent := lp.sent.filter fun t => !gone.contains t.last, lastAck := time
      again := lp.again.filter fun q => !gone.contains q }
  else lp

/-- A DATA flit in sequence: its credit returns and its lane's packet grows; a packet that is whole is taken (R309, R312). -/
def takeData (s : State) (ch p : Nat) (h : Nat) (pay : List Byte) : State :=
  let vl := bits h 58 2
  let lp := getPort (getCh s ch) p
  let b := if bit h 32 then pay else tabGet lp.rx [] vl ++ pay
  let len := 16 + bits (fld b 0 16) 64 13
  let whole := decide (len ≤ b.length)
  let s := updPort s ch p fun lp => { lp with
    rxSeq := bits h 46 12
    retCred := tabUpd lp.retCred 0 vl (· + 1)
    rx := if whole then tabDel lp.rx vl else tabSet lp.rx vl b }
  if whole then takePkt s ch p (b.take len) else s

/-- A port that hears its peer: UP, and in a shutdown until its flits are acknowledged (Table 14.9). -/
def portHears (st : PortSt) : Bool :=
  decide (st = .up ∨ st = .shutdown ∨ st = .restarting)

/-- An UP port found faulty. -/
def portFault (s : State) (ch p : Nat) : State :=
  if (getPort (getCh s ch) p).st = .up then portFail s ch p .fault else s

/-- The next flit of a replay sent again (R310); a flit replayed eight times is a fault (R318). -/
def portAgain (s : State) (ch p : Nat) (f : DataFlit) : State :=
  let s := updPort s ch p fun lp => { portEmit true 1 f.vl f.seq f.isFirst f.pay lp with
    again := lp.again.tail
    replay := lp.replay.map fun g => if g.seq = f.seq then { g with times := g.times + 1 } else g }
  if 8 ≤ f.times + 1 then portFault s ch p else s

/-- What an external port sends at a flit boundary that is free (R306, R311): a flit under replay, an idle symbol that waited for it, a
packet's flit while the replay buffer has room, else IDLE. -/
def portSlot (s : State) (ch p : Nat) : State :=
  let lp := getPort (getCh s ch) p
  if lp.st ≠ .up ∨ s.hub.time % 4 ≠ 0 ∨ s.hub.time < lp.slotAt then s
  else
    let s := updPort s ch p fun lp => { lp with slotAt := s.hub.time + 4 }
    match lp.again.head?.bind fun q => lp.replay.find? fun f => f.seq == q with
    | some f => portAgain s ch p f
    | none => match lp.waits with
      | x :: r => updPort s ch p fun lp => emitSymbol s ch p x { lp with waits := r, again := [], slotAt := s.hub.time }
      | [] => match (if 512 ≤ lp.replay.length then none else portPick (getCh s ch).cycles lp) with
        | some t => countFlits (updPort s ch p (portData true s.hub.time t)) ch p 1
        | none => updPort s ch p (portEmit true 0 0 0 false [])

/-- A flit that cannot be read: a drawbar port faults (R320), an external port asks for a replay (R308). -/
def flitBad (s : State) (ch p : Nat) : State :=
  if p < 4 then dSat (updPort s ch p fun lp => { lp with nak := true }) (lnkIdx ch p) 9 1 else portFault s ch p

/-- A readable flit at a port that is UP (R306-R310): the credits and the NAK of its header, then what it is. -/
def flitTake (s : State) (ch p h : Nat) (pay : List Byte) : State :=
  let s := updPort s ch p fun lp => { lp with credits := tabUpd lp.credits 0 (bits h 30 2) (· + bits h 20 10) }
  let s := if bit h 33 ∧ p < 4 ∧ (getPort (getCh s ch) p).replay ≠ [] then dSat (updPort s ch p portReplay) (lnkIdx ch p) 10 1 else s
  let s := match bits h 60 4 with
    | 1 => if bits h 46 12 = ((getPort (getCh s ch) p).rxSeq + 1) % 4096 then portIdle (takeData s ch p h pay) ch p else s
    | 2 => ftStamp s ch p (fld pay 0 8) (ftNow16 s ch) (fld pay 8 1)
    | 3 => answerEcho s ch p (fld pay 0 8) (ftNow16 s ch)
    | 4 => takeEcho s ch p (fld pay 0 8) (fld pay 8 8) (fld pay 16 8) (ftNow16 s ch)
    | _ => s
  portFlush s ch p

/-- A flit arrives (R306-R310, R320): a port that shuts down takes its acknowledgement and nothing else (R319). -/
def flitReceive (s : State) (ch p : Nat) (bytes : List Byte) : State :=
  let st := (getPort (getCh s ch) p).st
  if !portHears st then s
  else
    match (if p < 4 then fecDecode (padTo 256 bytes) else some (padTo 256 bytes, 0)) with
    | none => flitBad s ch p
    | some (b, n) =>
      if fld b 240 4 ≠ crc32c (b.take 240) then flitBad s ch p
      else
        let h := fld b 0 8
        let s := if n = 0 then s else dAdd s (lnkIdx ch p) 8 64 n
        let s := updPort s ch p (portAck s.hub.time (bits h 34 12))
        if st = .up then flitTake s ch p h (slice b 8 232) else s

/-! ### Link control packets (R314) -/

/-- The body of Table 14.7. -/
def lctlBody (op : Nat) (k : Lctl) : List Byte :=
  leBytes 1 op ++ zeros 3 ++ leBytes 4 k.tag.toNat ++ leBytes 8 k.step.toNat ++ leBytes 2 k.gen.toNat ++ leBytes 2 k.id.toNat ++
    zeros 4 ++ leBytes 8 k.time.toNat

/-- The link control packet a body spells. -/
def lctlOf (p : Pkt) : Lctl :=
  ⟨p.sdev, p.sch, BitVec.ofNat 32 (fld p.body 4 4), BitVec.ofNat 64 (fld p.body 8 8), BitVec.ofNat 16 (fld p.body 16 2),
    BitVec.ofNat 16 (fld p.body 18 2), BitVec.ofNat 64 (fld p.body 24 8)⟩

/-- A link control item to a channel of this module: over the configuration links and the hub, 300 ns (R258; DESIGN CHOICE: assumption log, 10). -/
def relayLctl (s : State) (dch op : Nat) (k : Lctl) : State :=
  updHub s fun h => { h with relay := h.relay ++ [(h.time + 300, dch, op, k)] }

/-- A link control packet to a channel of another module, kept until its LACK (R314). -/
def sendLctl (s : State) (ch op ddev dch : Nat) (k : Lctl) : State :=
  let id := (getCh s ch).nextId
  let k := { k with srcDev := BitVec.ofNat 12 (ownDev s), srcCh := BitVec.ofNat 2 ch, id := BitVec.ofNat 16 id }
  let s := updCh s ch fun c => { c with
    nextId := (id + 1) % 65536
    lctls := c.lctls ++ [⟨id, op, k, ddev, dch, s.hub.time, 0⟩] }
  sendPkt s ch 6 ddev dch 0xFFFF 0 (lctlBody op k)

/-- A link control item to any channel: no transit within the sending channel is made here. -/
def sendCtl (s : State) (ch op ddev dch : Nat) (k : Lctl) : State :=
  if ddev = ownDev s then relayLctl s dch op { k with srcDev := BitVec.ofNat 12 (ownDev s), srcCh := BitVec.ofNat 2 ch }
  else sendLctl s ch op ddev dch k

/-- A link control packet from another module: an LACK answers it, and its ID is acted on once (R314). -/
def takeLctl (s : State) (ch : Nat) (k : Lctl) : State × Bool :=
  if k.srcDev.toNat = ownDev s then (s, true)
  else
    let s := sendPkt s ch 7 k.srcDev.toNat k.srcCh.toNat 0xFFFF k.id.toNat []
    let key := (k.srcDev.toNat, k.srcCh.toNat, k.id.toNat)
    if (getCh s ch).seenIds.contains key then (s, false)
    else (updCh s ch fun c => { c with seenIds := (key :: c.seenIds).take 32768 }, true)

/-! ### Commands -/

/-- FLIT_RECEIPT (R304-R310, R316, R320). -/
def execFlitReceipt (ch : ChId) (p : BitVec 3) (bytes : List Byte) (s : State) : Host.Outcome State Fault Refusal :=
  .next (flitReceive s ch.toNat p.toNat bytes)

/-- TIME_FLIT_SEND (R317). -/
def execTimeFlitSend (ch : ChId) (p : BitVec 3) (s : State) : Host.Outcome State Fault Refusal :=
  if portIsUp (getCh s ch.toNat) p.toNat then .next (sendTime s ch.toNat p.toNat) else .next s

/-- TIME_STAMP_RECEIPT (R224). -/
def execTimeStampReceipt (ch : ChId) (p : BitVec 3) (stamp rx : BitVec 64) (stratum : Byte) (s : State) :
    Host.Outcome State Fault Refusal :=
  if portIsUp (getCh s ch.toNat) p.toNat then .next (ftStamp s ch.toNat p.toNat stamp.toNat rx.toNat stratum.toNat) else .next s

/-- LINK_DELAY_MEASUREMENT (R317): an ECHO_REQ is sent. -/
def execLinkDelayMeasurement (ch : ChId) (p : BitVec 3) (s : State) : Host.Outcome State Fault Refusal :=
  if portIsUp (getCh s ch.toNat) p.toNat then .next (sendEcho s ch.toNat p.toNat) else .next s

/-- ECHO_REQ (R317). -/
def execEchoReq (ch : ChId) (p : BitVec 3) (t1 t2 : BitVec 64) (s : State) : Host.Outcome State Fault Refusal :=
  if portIsUp (getCh s ch.toNat) p.toNat then .next (answerEcho s ch.toNat p.toNat t1.toNat t2.toNat) else .next s

/-- ECHO_RSP (R317). -/
def execEchoRsp (ch : ChId) (p : BitVec 3) (t1 t2 t3 t4 : BitVec 64) (s : State) : Host.Outcome State Fault Refusal :=
  if portIsUp (getCh s ch.toNat) p.toNat then .next (takeEcho s ch.toNat p.toNat t1.toNat t2.toNat t3.toNat t4.toNat) else .next s

/-- FT_SOURCE_LOST (R225): holdover begins. -/
def execFtSourceLost (ch : ChId) (s : State) : Host.Outcome State Fault Refusal :=
  let n := ch.toNat
  if (getCh s n).source = none then .next s else .next (ftLost s n)

/-- The ports of a channel are not dark: it serves or reloads, or is on its way to serve (R391, Table 18.3). -/
def portsLit (k : Channel) : Bool :=
  decide (k.st = .serving ∨ k.st = .reloading ∨ (k.st = .isolated ∧ k.req = 4))

/-- PORT_SIGNAL_DETECT: DOWN to TRAINING (Table 14.9). -/
def execPortSignalDetect (ch : ChId) (p : BitVec 3) (s : State) : Host.Outcome State Fault Refusal :=
  if (getPort (getCh s ch.toNat) p.toNat).st = .down ∧ p.toNat < 4 ∧ portsLit (getCh s ch.toNat) then
    .next (portEnter s ch.toNat p.toNat .training)
  else .next s

/-- A port that comes UP starts its numbers and credits anew (R319, Table 14.4). -/
def freshPort (s : State) (ch p : Nat) : State :=
  updPort s ch p fun lp => { LinkPort.reset with st := lp.st, since := lp.since, credits := [(0, 32), (1, 64), (2, 192), (3, 192)], out := lp.out }

/-- PORT_TRAINING_COMPLETE (R319): identity, delay, stratum and flight time are kept; a miswire or a flight time above the pad is
a fault; otherwise UP, and the time source is taken anew. A device cut off by a REACH notice stays so (R322). -/
def execPortTrainingComplete (ch : ChId) (p : BitVec 3) (peer delay : Word) (flight stratum : Byte) (s : State) :
    Host.Outcome State Fault Refusal :=
  let n := ch.toNat
  let i := lnkIdx n p.toNat
  if (getPort (getCh s n) p.toNat).st ≠ .training then .next s
  else
    let s := dSet (dSet (dSet s i 3 (bits peer.toNat 16 16 * 65536)) i 6 delay.toNat) i 7 stratum.toNat
    let want := dGet s i 4
    if (want ≠ 0xFFFFFFFF ∧ want / 65536 ≠ peer.toNat / 65536) ∨ dGet s i 5 < flight.toNat then .next (portEnter s n p.toNat .fault)
    else
      .next (ftSelect (portEnter (freshPort s n p.toNat) n p.toNat .up) n)

/-- PORT_TRAINING_TIMEOUT: back to DOWN (Table 14.9). -/
def execPortTrainingTimeout (ch : ChId) (p : BitVec 3) (s : State) : Host.Outcome State Fault Refusal :=
  if (getPort (getCh s ch.toNat) p.toNat).st = .training then .next (portEnter s ch.toNat p.toNat .down) else .next s

/-- PORT_LINK_LOSS: UP to DOWN, with failover (R318, R322, R323). -/
def execPortLinkLoss (ch : ChId) (p : BitVec 3) (s : State) : Host.Outcome State Fault Refusal :=
  if (getPort (getCh s ch.toNat) p.toNat).st = .up then .next (portFail s ch.toNat p.toNat .down) else .next s

/-- PORT_ACK_TIMEOUT: no ACK progress for 10 µs is a fault (R318). -/
def execPortAckTimeout (ch : ChId) (p : BitVec 3) (s : State) : Host.Outcome State Fault Refusal :=
  let lp := getPort (getCh s ch.toNat) p.toNat
  if lp.st = .up ∧ lp.replay ≠ [] then .next (portFail s ch.toNat p.toNat .fault) else .next s

/-- PORT_SHUTDOWN_COMPLETE: SHUTDOWN to DISABLED, RESTARTING to DOWN (Table 14.9). -/
def execPortShutdownComplete (ch : ChId) (p : BitVec 3) (s : State) : Host.Outcome State Fault Refusal :=
  match (getPort (getCh s ch.toNat) p.toNat).st with
  | .shutdown => .next (portFail s ch.toNat p.toNat .disabled)
  | .restarting => .next (portFail s ch.toNat p.toNat .down)
  | _ => .next s

/-- A write of LNK_ENABLE to a port that exists: the object of the channel's own letter is absent (R329). -/
def onPort (s : State) (q : Req) (ch p : Nat) (eff : State → State) : State :=
  if p = 4 + ch then (if portUp s q then answer s q 0x01 [] else s) else onWrite s q (lnkIdx ch p) 1 eff

/-- LNK_ENABLE: true is written (Table 14.9). -/
def execLnkEnable (q : Req) (ch : ChId) (p : BitVec 3) (s : State) : Host.Outcome State Fault Refusal :=
  let n := ch.toNat
  .next (onPort s q n p.toNat fun s =>
    let s := dSet s (lnkIdx n p.toNat) 1 1
    match (getPort (getCh s n) p.toNat).st with
    | .disabled => answer (portEnter s n p.toNat .down) q 0x00 []
    | .shutdown => answer (portEnter s n p.toNat .restarting) q 0x00 []
    | _ => answer s q 0x00 [])

/-- LNK_DISABLE: false is written; the port shuts down, from any state but DISABLED and SHUTDOWN (Table 14.9). -/
def execLnkDisable (q : Req) (ch : ChId) (p : BitVec 3) (s : State) : Host.Outcome State Fault Refusal :=
  let n := ch.toNat
  .next (onPort s q n p.toNat fun s =>
    let s := dSet s (lnkIdx n p.toNat) 1 0
    match (getPort (getCh s n) p.toNat).st with
    | .disabled => answer s q 0x00 []
    | .shutdown => answer s q 0x00 []
    | _ => answer (portEnter s n p.toNat .shutdown) q 0x00 [])

/-- A route write the rules refuse (R321): the channel's own drawbar, a local entry for another channel, an entry for another channel of
the own device that is not the drawbar to it, whatever VALID; a reserved code in a valid entry (DESIGN CHOICE: assumption log, 98). -/
def routeRefused (dev ch n e : Nat) : Bool :=
  let pri := bits e 24 4
  let alt := bits e 20 4
  (bit e 31 && (decide (9 ≤ pri) || decide (9 ≤ alt ∧ alt ≠ 15))) || pri == 4 + ch || alt == 4 + ch ||
    (pri == 8 && n != 4 * dev + ch) || (n / 4 == dev && n % 4 != ch && pri != 4 + n % 4)

/-- Route entries written one by one, up to the first refused (R321, R359). -/
def routeWrite (dev ch : Nat) : Nat → List (List Byte) → State → State × Bool
  | _, [], s => (s, true)
  | n, b :: r, s =>
    let e := leNat b
    if 16384 ≤ n ∨ routeRefused dev ch n e then (s, false)
    else
      let e := bits e 20 8 * 2 ^ 20 + b2n (bit e 31) * 2 ^ 31
      routeWrite dev ch (n + 1) r (updCh s ch fun k => { k with routes := if e = 0 then tabDel k.routes n else tabSet k.routes n (BitVec.ofNat 32 e) })

/-- LNK_ROUTE_DATA (R321). -/
def execLnkRouteData (q : Req) (ch : ChId) (bytes : List Byte) (s : State) : Host.Outcome State Fault Refusal :=
  let n := ch.toNat
  .next (onWrite s q (cIdx n 0x400) 4 fun s =>
    if bytes.length % 4 ≠ 0 ∨ 4096 < bytes.length then answer s q 0x04 []
    else
      let (s, ok) := routeWrite (ownDev s) n (cGet s n 0x400 2) (chunksOf 4 1024 bytes) s
      answer s q (if ok then 0x00 else 0x09) [])

/-- REACH (R322): a device is reachable through a port or not; packets to it that wait at the port take the new route (R328). -/
def execReach (ch : ChId) (p : BitVec 3) (k : Pkt) (s : State) : Host.Outcome State Fault Refusal :=
  let dev := k.arg.toNat / 2 ^ 52
  if bit k.arg.toNat 51 then
    .next (updCh s ch.toNat fun c => { c with cutOff := c.cutOff.filter fun e => e != (dev, p.toNat) })
  else
    let s := updCh s ch.toNat fun c => { c with cutOff := (dev, p.toNat) :: c.cutOff.filter fun e => e != (dev, p.toNat) }
    let goes : TxPkt → Bool := fun t => t.done == 0 && (pktOf t.bytes).ddev.toNat == dev
    let moved := (getPort (getCh s ch.toNat) p.toNat).tx.filter goes
    let s := updPort s ch.toNat p.toNat fun lp => { lp with tx := lp.tx.filter fun t => !goes t }
    .next (moved.foldl (fun s t => forwardPkt s ch.toNat t.cut t.bytes) s)

/-- LACK (R314): the link control packet it names needs no more sending. -/
def execLack (ch : ChId) (id : BitVec 16) (s : State) : Host.Outcome State Fault Refusal :=
  .next (updCh s ch.toNat fun c => { c with lctls := c.lctls.filter fun l => l.id != id.toNat })

/-- LCTL_RESEND_TIMEOUT (R314): sent again, up to eight times; then an event and no more. -/
def execLctlResendTimeout (ch : ChId) (id : BitVec 16) (s : State) : Host.Outcome State Fault Refusal :=
  let n := ch.toNat
  match (getCh s n).lctls.find? fun l => l.id == id.toNat with
  | none => .next s
  | some l =>
    if 8 ≤ l.tries then
      .next (chEvent (updCh s n fun c => { c with lctls := c.lctls.filter fun x => x.id != l.id }) n 0x0061 0xFFFF
        (leBytes 1 l.op ++ zeros 1 ++ leBytes 2 l.id))
    else
      let s := updCh s n fun c => { c with lctls := c.lctls.map fun x =>
        if x.id = l.id then { x with tries := x.tries + 1, sent := s.hub.time } else x }
      .next (sendPkt (dSat s (cIdx n 0x400) 5 1) n 6 l.ddev l.dch 0xFFFF 0 (lctlBody l.op l.body))

end Sys2Proof.Machine
end

