-- ==== Sys2Proof/Machine/Halt.lean ====
section
/-! DEFINITION. Halt: halts and the halt record (R50-R54), queue closing (R53), the end of a job (R238, R175, Table 13.5), fault
signatures (R268, R274), and how a revoke starts and stops a job (R262-R267). -/

namespace Sys2Proof.Machine

/-! ### Jobs in a channel -/

/-- A job in a channel. -/
def jobOf (k : Channel) (j : Nat) : JobCh :=
  tabGet k.jobs JobCh.reset j

/-- A job in a channel changed. -/
def updJobCh (s : State) (ch j : Nat) (f : JobCh → JobCh) : State :=
  updCh s ch fun k => { k with jobs := tabUpd k.jobs JobCh.reset j f }

/-- The cores of a job in a channel: those whose task it loaded. -/
def jobCores (k : Channel) (j : Nat) : List Nat :=
  (k.cores.filter fun e => e.2.job == j && e.2.status != .noTask).map (·.1)

/-- Every core of a job in a channel changed. -/
def updJobCores (s : State) (ch j : Nat) (f : Nat → Core → Core) : State :=
  updCh s ch fun k => { k with cores := tabMap k.cores fun n c => if c.job = j ∧ c.status ≠ .noTask then f n c else c }

/-- JOBTAG (Table 13.1): the lead module's DEV and the job slot, the same in every module (DEDUCED: assumption log, 11). -/
def jobTag (s : State) (j : Nat) : Nat :=
  (getJob s j).lead.1 * 65536 + j

/-- The physical position of a logical core (R280); before any shunt its own number (PRESUMED: assumption log, 6). -/
def posOf (k : Channel) (n : Nat) : Nat :=
  tabGet k.phys (n % 16) n

/-- The key of a position in its channel. -/
def posKey (cl pos : Nat) : Nat :=
  17 * cl + pos

/-- The state of a position (R280): positions 0 to 15 in use, 16 the free spare. -/
def posState (k : Channel) (cl pos : Nat) : PosSt :=
  tabGet k.posSt (if pos = 16 then .spareFree else .inUse) (posKey cl pos)

/-- The position's code in the cluster map (R280). -/
def posCode (p : PosSt) : Nat :=
  match p with
  | .inUse => 0
  | .spareFree => 1
  | .failed => 2
  | .inspecting => 3
  | .unavailable => 4

/-! ### The halt record -/

/-- The 64 bits of Table 2.13. -/
def haltBits (r : HaltRec) : Nat :=
  r.cycle % 2 ^ 32 * 2 ^ 32 + r.reason * 2 ^ 24 + b2n r.async * 2 ^ 23 + r.slot * 2 ^ 20 + r.ring % 4096

/-- The brake causes that cores of a channel raised, less those of the cores named (R230, R52). -/
def dropCauses (k : Channel) (cores : List Nat) : Channel :=
  { k with brake := { k.brake with causes := k.brake.causes.filter fun c => !(cores.contains c.core && c.code != 8) } }

/-- A record as the journal's JOB_END cause sees it: 1 commanded by the control node, 5 its own condition (Table 13.5). -/
def haltCause (r : HaltRec) : Nat :=
  if r.reason = 0xA0 ∨ r.reason = 0xA6 then 1 else 5

/-- Whether a core still counts as running or holding (R53, R238). -/
def coreLive (c : Core) : Bool :=
  match c.status with
  | .running => true
  | .holding => true
  | .stopped => true
  | .done => true
  | _ => false

/-- A core's receive queues closed by the channel controller (R53). -/
def shutQueues (c : Core) : Core :=
  { c with queues := tabMap c.queues fun _ q => { q with shut := true } }

/-- The queues of a job's cores in a channel close once none of its tasks there runs or holds (R53). -/
def settleQueues (s : State) (ch j : Nat) : State :=
  let k := getCh s ch
  if (jobCores k j).all fun n => !coreLive (coreOf k n) then
    updJobCores s ch j fun _ c => if c.status = .halted then shutQueues c else c
  else s

/-- Objects of an ended job that differ from their value at its first launch: one event each, counted (R175). -/
def leftChanged (s : State) (ch j : Nat) : State :=
  ((getCh s ch).objs.filter fun e => e.2.job == some j && e.2.first.isSome && e.2.first != some e.2.ctr).foldl (fun s e =>
    dSat (chEvent s ch 0x0032 j (leBytes 2 e.1 ++ zeros 2 ++ leBytes 4 e.2.ctr ++ leBytes 4 (e.2.first.getD 0))) (cIdx ch 0x500) 3 1) s

/-- The channels of the module in which a job has tasks. -/
def jobHere (j : Job) : List Nat :=
  (j.tasks.map fun t => t.2 / 128).dedup

/-- The cause of a JOB_END record (Table 13.5). -/
def endCause (s : State) (j : Nat) : Nat :=
  let job := getJob s j
  let chs := (jobHere job).map fun ch => getCh s ch
  let recs := chs.flatMap fun k => (jobCores k j).filterMap fun n => if (coreOf k n).status = .halted then (coreOf k n).halt else none
  match job.stopped with
  | some c => c
  | none =>
    if chs.any fun k => ((jobOf k j).revoke.map (·.phase)) == some .limited then 3
    else if chs.any fun k => (jobCores k j).any fun n => (coreOf k n).status == .unavailable then 4
    else if recs.any fun r => haltCause r == 1 then 1
    else if recs ≠ [] then 5 else 0

/-- The body of a JOB_END record. -/
def jobEndBody (s : State) (j : Nat) : List Byte :=
  let done := (jobHere (getJob s j)).map fun ch => (jobOf (getCh s ch) j).committed
  let last := done.foldl min (done.headD 0)
  leBytes 8 (if last = 0 then 2 ^ 64 - 1 else last - 1) ++ leBytes 1 (endCause s j) ++ zeros 23

/-- A job becomes ENDED and is journalled (R238, Table 13.5). -/
def endJob (s : State) (j : Nat) : State :=
  let s := (jobHere (getJob s j)).foldl (fun s ch => leftChanged s ch j) s
  let r : JBody := ⟨4, 0xFF, jobTag s j, j, hubTime s, jobEndBody s j, none⟩
  jnlHand (updJob s j fun b => { b with st := .ended }) r

/-- A task of the job runs or holds in this module, or a revoke of it is in progress (R238). -/
def jobBusy (s : State) (j : Nat) : Bool :=
  (jobHere (getJob s j)).any fun ch =>
    let k := getCh s ch
    ((jobOf k j).revoke.map (·.phase)).any (fun p => p != .limited && p != .lost) || (jobCores k j).any fun n => coreLive (coreOf k n)

/-- A running job whose every task has ended or halted, with no revoke in progress, becomes ENDED (R238). -/
def settleJob (s : State) (j : Nat) : State :=
  if (getJob s j).st = .running ∧ !jobBusy s j then endJob s j else s

/-! ### Halting -/

/-- A core halts with a record (R50): what waits in its X queue is discarded, its brake causes end, an event reports it. -/
def haltCore (s : State) (c : CoreId) (r : HaltRec) : State :=
  let k := getCh s (chOf c)
  let core := getCore s c
  if !coreLive core then s
  else
    let s := updCore s c fun x => { x with status := .halted, halt := some r, pendHalt := none, xq := [], xHeld := false, xWait := none }
    let s := updCh s (chOf c) fun k => dropCauses k [inCh c]
    let s := chEvent s (chOf c) 0x0001 core.job
      (leBytes 1 (inCh c / 16) ++ leBytes 1 (inCh c % 16) ++ leBytes 1 (posOf k (inCh c)) ++ zeros 5 ++ leBytes 8 (haltBits r))
    settleJob (settleQueues s (chOf c) core.job) core.job

/-- A condition found at issue (R51): the record names the row word now issuing. -/
def haltNow (s : State) (c : CoreId) (slot reason : Nat) : State :=
  let k := startCore s c
  haltCore s c ⟨k.sched, reason, false, slot, k.pc⟩

/-- The earlier of two records found in one cycle (R51): by slot, a commanded halt last; of two that R51 does not order, the one met first
(DESIGN CHOICE: assumption log, 97). -/
def earlierHalt (a : Option HaltRec) (b : HaltRec) : HaltRec :=
  match a with
  | none => b
  | some a => if b.slot < a.slot then b else a

/-- A halt that takes effect at the next row-word boundary, at once where no row word issues (R51, R52). -/
def haltLater (s : State) (c : CoreId) (r : HaltRec) : State :=
  if (getCore s c).status = .running ∧ !brakeNow (getCh s (chOf c)) then
    updCore s c fun k => { k with pendHalt := some (earlierHalt k.pendHalt r) }
  else haltCore s c r

/-- A condition of an operation in flight, recorded against its instruction (R51). -/
def haltOrigin (s : State) (c : CoreId) (o : Origin) (reason : Nat) : State :=
  haltLater s c ⟨o.cyc, reason, true, o.slot, o.pc⟩

/-- A condition that no instruction of the core caused: the row word that issues or would issue next, ASYNC 1 (R52, R166). -/
def haltForeign (s : State) (c : CoreId) (slot reason : Nat) : State :=
  let k := getCore s c
  haltLater s c ⟨k.sched, reason, true, slot, k.pc⟩

/-- A commanded halt: slot code 7 (R52, Table 2.13), ASYNC 0 (DESIGN CHOICE: assumption log, 97). -/
def haltCommanded (s : State) (c : CoreId) (reason : Nat) : State :=
  let k := getCore s c
  haltLater s c ⟨k.sched, reason, false, 7, k.pc⟩

/-- A commanded halt that takes effect at once. -/
def haltAtOnce (s : State) (c : CoreId) (reason : Nat) : State :=
  let k := getCore s c
  haltCore s c ⟨k.sched, reason, false, 7, k.pc⟩

/-! ### The hazard detector (R247) -/

/-- The 128 bits of Table 11.17. -/
def hazardBits (c : CoreId) (job kind slot pc cyc detail : Nat) : Nat :=
  kind * 2 ^ 120 + c.toNat * 2 ^ 111 + slot * 2 ^ 108 + pc % 4096 * 2 ^ 96 + cyc % 2 ^ 32 * 2 ^ 64 + job * 2 ^ 48 + detail % 2 ^ 48

/-- A hazard of Table 11.16 met by a task of a debug image: counted, logged, reported; with LDR_HAZARD_STOP its core halts with 0xA5.
It changes nothing else. -/
def hazard (s : State) (c : CoreId) (kind slot pc cyc detail : Nat) : State :=
  let job := (getCore s c).job
  if dGet s 0x0600 2 ≠ 1 ∨ !(getJob s job).debug then s
  else
    let e := BitVec.ofNat 128 (hazardBits c job kind slot pc cyc detail)
    let s := dSat (updHub s fun h => { h with hazards := (e :: h.hazards).take 256 }) 0x0600 7 1
    let s := chEvent s (chOf c) 0x0025 job (leBytes 16 e.toNat)
    if dGet s 0x0600 3 = 1 then haltCommanded s c 0xA5 else s

/-! ### Fault signatures (R274) -/

/-- What a failed check shows: kind, origin, RES_A, RES_B, shared block, scales, the kept operands and the lane scales. -/
structure Failure where
  kind    : Nat
  org     : Origin
  resA    : Nat
  resB    : Nat
  shared  : List Byte
  scales  : Nat
  pattern : List Byte
  laneSc  : List Byte
deriving DecidableEq, Repr

/-- The 256 bytes of Table 12.7. -/
def sigBytes (s : State) (c : CoreId) (count pos : Nat) (f : Failure) : List Byte :=
  let k := getCh s (chOf c)
  let core := getCore s c
  leBytes 8 k.ft ++ leBytes 8 f.org.step ++ leBytes 2 core.job ++ leBytes 1 (chOf c) ++ leBytes 1 (inCh c / 16) ++
    leBytes 1 (inCh c % 16) ++ leBytes 1 pos ++ leBytes 1 f.kind ++ leBytes 1 count ++ leBytes 2 f.org.pc ++ leBytes 1 f.org.slot ++
    leBytes 1 core.profile ++ leBytes 2 k.mhz ++ zeros 2 ++ leBytes 8 f.org.word ++ leBytes 8 f.resA ++ leBytes 8 f.resB ++
    padTo 32 f.shared ++ leBytes 4 f.scales ++ zeros 4 ++ sm3 f.pattern ++ (if f.laneSc = [] then zeros 32 else sm3 f.laneSc) ++
    serialBytes ++ zeros 16 ++ beBytes 32 k.prevSig.toNat ++ zeros 32

/-- A signature written: the channel's log, its counters, the journal's FAULT record and the event (R274). -/
def writeSig (s : State) (c : CoreId) (count pos : Nat) (f : Failure) : State :=
  let ch := chOf c
  let b := sigBytes s c count pos f
  let core := getCore s c
  let s := updCh s ch fun k => { k with fsigs := (⟨b, f.pattern⟩ :: k.fsigs).take 64, prevSig := sm3N b }
  let s := dSat (dSat s (cIdx ch 0x704) 4 1) 0x0500 3 1
  let s := if core.job = 0xFFFF then s else updJobCh s ch core.job fun v => { v with fsigs := v.fsigs + 1 }
  let s := chEvent s ch 0x0050 core.job (leBytes 8 f.org.step ++ leBytes 1 f.kind ++ leBytes 1 count ++ leBytes 1 (inCh c / 16) ++ leBytes 1 pos)
  jnlHand s ⟨3, ch, if core.job = 0xFFFF then 0 else jobTag s core.job, core.job, (getCh s ch).ft, b, none⟩

/-! ### Revokes -/

/-- A core stopped by a revoke (R264): it issues nothing; the causes it raised are withdrawn. -/
def stopCore (c : Core) : Core :=
  match c.status with
  | .running => { c with status := .stopped }
  | .holding => { c with status := .stopped }
  | .done => { c with status := .stopped }
  | _ => c

/-- A condition found earlier in the cycle in which a core is stopped halts it at once (R51, R52). -/
def stopHalts (s : State) (ch j : Nat) : State :=
  (jobCores (getCh s ch) j).foldl (fun s n => match (getCore s (mkCore ch n)).pendHalt with
    | some r => haltCore s (mkCore ch n) r
    | none => s) s

/-- The step that a channel releases next. -/
def nextStep (v : JobCh) : Nat :=
  match v.step with
  | some n => n + 1
  | none => 0

/-- A revoke of a step that the channel has still to release, kept for its release: the later generation, of one generation the later count
(R266). -/
def earlyRevoke (step gen time : Nat) (old : Option (Nat × Nat × Nat)) : Nat × Nat × Nat :=
  match old with
  | some (m, g, t) => if m ≠ step ∨ g < gen then (step, gen, time) else if g = gen then (m, g, max t time) else (m, g, t)
  | none => (step, gen, time)

/-- A job as the revoke of its step finds it: a clearance it had sent no longer counts, and its fold of the digest is undone (R258,
R278). -/
def unclear (step : Nat) (v : JobCh) : JobCh :=
  { v with sentClear := min v.sentClear step, cumDig := if v.sentClear = step + 1 then v.digWas else v.cumDig }

/-- The revoke generation a step has reached in a channel. -/
def genOf (v : JobCh) (step : Nat) : Nat :=
  if v.step = some step then v.gen
  else match v.early with
    | some (m, g, _) => if m = step then g else 0
    | none => 0

/-- A channel acts on a revoke (R264, R266): once on each generation, the later replay count of two, none after the limit; at the release of
the step where that is still to come. -/
def revokeAct (s : State) (ch j step gen time : Nat) (ordered : Bool) (shunts : List Nat) : State :=
  let k := getCh s ch
  let v := jobOf k j
  if !v.placed ∨ step < v.gotCommit then s
  else if v.step ≠ some step then
    if step = nextStep v then updJobCh s ch j fun v => { v with early := some (earlyRevoke step gen time v.early) } else s
  else if gen < v.gen then s
  else if gen = v.gen then
    updJobCh s ch j fun v => { v with
      missed := v.missed && decide (time ≤ k.ft)
      revoke := v.revoke.map fun r => { r with time := max r.time time, shunts := (r.shunts ++ shunts).dedup } }
  else
    let limited := ((v.revoke.map (·.phase)) == some .limited)
    let s := updJobCores s ch j fun _ c => stopCore c
    let s := updCh s ch fun k => dropCauses k (jobCores k j)
    if cGet s ch 0x700 5 ≤ v.acted ∧ !(ordered ∧ limited) then
      let s := updJobCh s ch j fun v => { unclear step v with gen := gen, revoke := some ⟨step, gen, time, .limited, shunts, []⟩ }
      stopHalts (chEvent s ch 0x0051 j (leBytes 8 step)) ch j
    else
      stopHalts (dSat (updJobCh s ch j fun v => { unclear step v with
          gen := gen, acted := v.acted + 1, missed := false, revoke := some ⟨step, gen, time, .draining, shunts, []⟩ })
        (cIdx ch 0x700) 4 1) ch j

/-- The other channels of this module in which a job has tasks. -/
def siblings (s : State) (ch j : Nat) : List Nat :=
  (jobHere (getJob s j)).filter fun c => c != ch

/-- One channel of every other module of a job (R263). -/
def otherModules (s : State) (j : Nat) : List (Nat × Nat) :=
  ((getJob s j).chans.filter fun e => e.1 != ownDev s).foldl (fun l e => if l.any fun x => x.1 == e.1 then l else l ++ [e]) []

/-- A revoke starts in a channel (R263): the replay launch count is set, the other channels of the module and one channel of every
other module are told, and the channel acts on it. -/
def revokeStart (s : State) (ch j step : Nat) (ordered : Bool) (shunts : List Nat) : State :=
  let v := jobOf (getCh s ch) j
  let gen := genOf v step + 1
  let time := (getCh s ch).ft + cGet s ch 0x700 6
  let body : Lctl := ⟨0, 0, BitVec.ofNat 32 (jobTag s j), BitVec.ofNat 64 step, BitVec.ofNat 16 gen, 0, BitVec.ofNat 64 time⟩
  let s := (siblings s ch j).foldl (fun s c => sendCtl s ch 2 (ownDev s) c body) s
  let s := (otherModules s j).foldl (fun s e => sendCtl s ch 2 e.1 e.2 body) s
  revokeAct s ch j step gen time ordered shunts

/-- A failure counted by its kind (Table 12.11): failed verdicts; residue and parity mismatches; hopper digest mismatches. -/
def countFailure (s : State) (ch kind : Nat) : State :=
  match kind with
  | 1 => dSat s (cIdx ch 0x700) 1 1
  | 2 => dSat s (cIdx ch 0x700) 2 1
  | 3 => dSat s (cIdx ch 0x700) 2 1
  | 4 => dSat s (cIdx ch 0x700) 3 1
  | _ => s

/-- A check has failed at a core (R105, R129, R140, R169, R262-R268): the signature, the position's failure, the halt of a second
failure, and the revoke of the step in which the instruction issued, unless the step is already stopped for one (R267): the generation's
first failure of the position is kept until the core is released again. `names` marks a failure that names its position for a shunt at
once. -/
def checkFailed (s : State) (c : CoreId) (f : Failure) (second : Nat) (names : Bool) : State :=
  let ch := chOf c
  let k := getCh s ch
  let core := getCore s c
  let v := jobOf k core.job
  let pos := posOf k (inCh c)
  let key := posKey (inCh c / 16) pos
  let again := core.failGen.map (·.1) == some f.org.step
  let prior := match tabFind k.posFail key with
    | some t => decide (k.ft - t ≤ cGet s ch 0x700 7)
    | none => false
  let twice := prior && !again
  let s := writeSig (countFailure s ch f.kind) c (if twice then 2 else 1) pos f
  let s := updCh s ch fun k => { k with posFail := tabSet k.posFail key k.ft }
  let s := updCore s c fun x => { x with failGen := some (f.org.step, v.gen) }
  let named := if twice ∨ names then [inCh c] else []
  let s := match v.revoke with
    | some r =>
      if r.step = f.org.step then
        updJobCh s ch core.job fun v => { v with revoke := v.revoke.map fun r => { r with shunts := (r.shunts ++ named).dedup } }
      else revokeStart s ch core.job f.org.step false named
    | none => revokeStart s ch core.job f.org.step false named
  if names then haltOrigin s c f.org 0xA3 else if twice then haltOrigin s c f.org second else s

end Sys2Proof.Machine
end

