-- ==== Sys2Proof/Machine/Flags.lean ====
section
/-! DEFINITION. Flags: the flag sets of the engines, their traps and their place in a step's record (R51, R99, R282). -/

namespace Sys2Proof.Machine

/-- The trap reason of a flag set (R99): 0x81 SAT, 0x82 EXP_RANGE, 0x83 NAN, under FLAG_TRAP. -/
def trapReason (trap : Word) (sat expr nan : Bool) : Option Nat :=
  if sat ∧ trap.getLsbD 0 then some 0x81
  else if expr ∧ trap.getLsbD 1 then some 0x82
  else if nan ∧ trap.getLsbD 2 then some 0x83
  else none

/-- Flags SAT, EXP_RANGE, NAN and CHECK as the four bits of a flag field. -/
def flagBits (sat expr nan chk : Bool) : Nat :=
  b2n sat + 2 * b2n expr + 4 * b2n nan + 8 * b2n chk

/-- Where the flags set in a flag register since the schedule cycle began are kept: a set wins over a clear of the same cycle (R99). -/
def freshKey (ecr : Nat) : Nat :=
  0x400 + ecr

/-- Flags set in a flag register at a bit offset, counted for the step's record (R282), trapping under FLAG_TRAP (R51, R99). -/
def raiseFlags (s : State) (c : CoreId) (ecr shift : Nat) (o : Origin) (sat expr nan chk : Bool) : State :=
  let v := flagBits sat expr nan chk
  if v = 0 then s
  else
    let w := BitVec.ofNat 32 (v * 2 ^ shift)
    let s := updCore s c fun k => { ecrSet (freshKey ecr) (ecrGet k (freshKey ecr) ||| w) (ecrSet ecr (ecrGet k ecr ||| w) k) with
      stepFlags := k.stepFlags ||| BitVec.ofNat 32 v }
    match trapReason (ecrGet (getCore s c) 0x006) sat expr nan with
    | some r => haltOrigin s c o r
    | none => s

end Sys2Proof.Machine
end

