-- ==== Sys2Proof/Machine/Operands.lean ====
section
/-! DEFINITION. Operands: how a slot command issues (R26, R50, R51), and the operand forms of the slots: coachman addresses
(R41), scratchpad units (R45, R133), held units (R251, R252), ring slots and item addresses (R141-R144). -/

namespace Sys2Proof.Machine

/-! ### Issue -/

/-- A slot command of a core (R26, R50): nothing where no row word may issue; the halt of a condition found at issue;
otherwise the effect. -/
def issue (s : State) (c : CoreId) (slot : Nat) (fault : Option Nat) (eff : State → State) : State :=
  if !canIssue s c then s
  else match fault with
    | some r => haltNow s c slot r
    | none => eff s

/-- The first condition that holds, of conditions listed in the order the spec names them. -/
def firstFault : List (Bool × Nat) → Option Nat
  | [] => none
  | (b, r) :: l => if b then some r else firstFault l

/-! ### The coachman -/

/-- imm18 and offsets, sign-extended (R41). -/
def sext18 (v : BitVec 18) : Word :=
  v.signExtend 32

/-- ea = g[base] + sext(imm18), in 32 bits (R41). -/
def effAddr (k : Core) (base : BitVec 4) (off : BitVec 18) : Nat :=
  (gReg k base.toNat + sext18 off).toNat

/-- The held records of the step the core runs (R251): those of its step-map entry's set, PARITY 2 or the step's own. -/
def heldNow (k : Core) : List HeldRec :=
  match k.stepMap[k.curMap]? with
  | none => []
  | some e => k.held.filter fun h => h.set == e.held && (h.parity == 2 || h.parity == k.step % 2)

/-- A range of relative units (kind 0) or data-memory bytes (kind 1) touches the held set (R252). -/
def touchesHeld (k : Core) (kind lo n : Nat) : Bool :=
  (heldNow k).any fun h => h.kind == kind && decide (lo < h.addr + h.count) && decide (h.addr < lo + n)

/-- The conditions of a coachman load or store of n bytes (R41, R252). -/
def dataFault (k : Core) (ea n : Nat) (store : Bool) : Option Nat :=
  firstFault [(decide (65536 < ea + n), 0x24), (decide (ea % n ≠ 0), 0x25), (store && touchesHeld k 1 ea n, 0x2C)]

/-! ### Scratchpad units -/

/-- A segment as it is before any power request: OFF. -/
def Seg.reset : Seg :=
  ⟨.off, 0, false⟩

/-- A segment of a core. -/
def segOf (k : Core) (n : Nat) : Seg :=
  tabGet k.segs Seg.reset n

/-- The physical byte address of a relative unit (R133). -/
def spadAddr (k : Core) (unit : Nat) : Nat :=
  k.base * 4096 + unit * 32

/-- The segment of a relative unit is ON (R138). -/
def segOn (k : Core) (unit : Nat) : Bool :=
  decide ((segOf k ((k.base + unit / 128) / 64)).st = .on)

/-- The effective unit address of an L slot (R45). -/
def unitAddr (k : Core) (ind : Bool) (gi : BitVec 4) (addr : BitVec 16) : Nat :=
  if ind then (gReg k gi.toNat + addr.setWidth 32).toNat else addr.toNat

/-- The conditions of an access to n units (R45). -/
def unitFault (k : Core) (u n : Nat) : Option Nat :=
  firstFault [(decide (65535 < u), 0x22), (decide (u % n ≠ 0), 0x23), (decide (k.bound ≤ u / 128), 0x21), (!segOn k u, 0x26)]

/-- The conditions of a write to n units (R45, R252). -/
def unitStoreFault (k : Core) (u n : Nat) : Option Nat :=
  match unitFault k u n with
  | some r => some r
  | none => if touchesHeld k 0 u n then some 0x2C else none

/-! ### Ring slots -/

/-- A ring with no descriptor. -/
def Ring.reset : Ring :=
  { desc := none, slots := [], tail := 0, head := 0, rel := 0, puts := [] }

/-- A stream ring of a core. -/
def ringOf (k : Core) (r : Nat) : Ring :=
  tabGet k.rings Ring.reset r

/-- A stream ring changed. -/
def updRing (r : Nat) (f : Ring → Ring) (k : Core) : Core :=
  { k with rings := tabUpd k.rings Ring.reset r f }

/-- A FREE ring slot (R143). -/
def RSlot.reset : RSlot :=
  { st := .free, item := 0, landed := none, dueAt := 0, written := [], freed := [], released := false, ver := 0, step := 0, seq := 0 }

/-- A ring slot. -/
def slotOf (g : Ring) (n : Nat) : RSlot :=
  tabGet g.slots RSlot.reset n

/-- A ring slot changed. -/
def updSlot (n : Nat) (f : RSlot → RSlot) (g : Ring) : Ring :=
  { g with slots := tabUpd g.slots RSlot.reset n f }

/-- The bytes of a slot: 64 on a remote ring, else SLOTSZ × 256 (Table 6.5). -/
def slotBytes (d : Desc) : Nat :=
  if d.kind = 2 then 64 else d.slotsz * 256

/-- The first relative unit of a slot (R141). -/
def slotUnit (d : Desc) (n : Nat) : Nat :=
  d.region + n * (slotBytes d / 32)

/-- Whether a slot reads zero in a schedule cycle (R144): issued, or due later than the cycle. -/
def slotMasked (x : RSlot) (cyc : Nat) : Bool :=
  match x.st with
  | .free => false
  | .issued => true
  | .due => decide (cyc < x.dueAt)

/-- Bytes read at a relative byte address, those of one byte range made zero. -/
def blank (lo n : Nat) (a m : Nat) (bs : List Byte) : List Byte :=
  if a + m ≤ lo ∨ lo + n ≤ a then bs
  else bs.mapIdx fun i b => if a ≤ lo + i ∧ lo + i < a + m then 0 else b

/-- The byte ranges of the core that read zero in a schedule cycle (R144): address and length relative to TASK_BASE. -/
def maskedAt (k : Core) (cyc : Nat) : List (Nat × Nat) :=
  k.rings.flatMap fun g => match g.2.desc with
    | none => []
    | some d => if d.kind = 1 then []
                else (g.2.slots.filter fun x => slotMasked x.2 cyc).map fun x => (slotUnit d x.1 * 32, slotBytes d)

/-- What the core reads in a schedule cycle at n bytes from a relative unit (R135, R144). -/
def spadRead (k : Core) (u n cyc : Nat) : List Byte :=
  (maskedAt k cyc).foldl (fun bs r => blank (u * 32) n r.1 r.2 bs) (memRead k.spad (spadAddr k u) n)

/-- A ring slot after an engine wrote units `u` to `u + n - 1`: a unit of an ISSUED slot stays the engine's (R144). -/
def slotTouched (d : Desc) (u n i : Nat) (x : RSlot) : RSlot :=
  let lo := slotUnit d i
  if lo < u + n ∧ u < lo + slotBytes d / 32 then
    { x with ver := x.ver + 1, written := if x.st = .issued then x.written ++ (List.range n).map (u + ·) else x.written }
  else x

/-- An engine's bytes written from a relative unit (R135, R144). -/
def spadWrite (k : Core) (u : Nat) (bs : List Byte) : Core :=
  let n := bs.length / 32
  { k with
    spad := memWrite k.spad (spadAddr k u) bs
    rings := tabMap k.rings fun _ g => match g.desc with
      | none => g
      | some d => if d.kind = 1 then g else { g with slots := tabMap g.slots (slotTouched d u n) } }

/-- The engine writes of the cycle performed: those queued by L stores, then those of scratchpad mdrns, which stand over them (R96, R135). -/
def flushStores (k : Core) : Core :=
  { k.stq.foldl (fun k w => spadWrite k w.unit w.data) k with stq := [] }

/-- Beats of a slot or item: 256-byte granules. -/
def beatsOf (n : Nat) : Nat :=
  (n + 255) / 256

/-- The item index of an sget or sput (R142). -/
def itemIndex (k : Core) (greg : Bool) (gi : BitVec 4) (disp : BitVec 18) : Nat :=
  (disp.setWidth 32 + (if greg then gReg k gi.toNat else 0)).toNat

/-- The item's address: a fabric address, or on a remote ring the source's unit address (R142). -/
def itemAddr (d : Desc) (j : Nat) : Nat :=
  if d.kind = 2 then d.faddr % 65536 + 2 * j * d.stride else (d.faddr + j * d.stride * 256) % 2 ^ 56

/-! ### Receive queues -/

/-- A hopper slot at task start: slot k expects round k (R166). -/
def HSlot.reset (n : Nat) : HSlot :=
  { expect := n, seen := [], wait := [], folded := 0, units := 0, sum := [], ready := none, digs := [] }

/-- An empty receive queue. -/
def Queue.reset : Queue :=
  { msgs := [], slots := [], shut := false, next := 0, reading := none }

/-- A receive queue of a core. -/
def queueOf (c : Core) (qn : Nat) : Queue :=
  tabGet c.queues Queue.reset qn

/-- A receive queue changed. -/
def updQueue (qn : Nat) (f : Queue → Queue) (c : Core) : Core :=
  { c with queues := tabUpd c.queues Queue.reset qn f }

/-- A hopper slot of a queue. -/
def hslotOf (q : Queue) (n : Nat) : HSlot :=
  tabGet q.slots (HSlot.reset n) n

/-- What happened in an earlier cycle than the one to come. -/
def before (k : Channel) (w : Option Nat) : Bool :=
  match w with
  | some w => decide (w < k.cycles)
  | none => false

/-- A queue holds a message or a READY slot, whichever a receive would take (Table 7.8). -/
def queueHolds (k : Channel) (c : Core) (qn : Nat) : Bool :=
  let q := queueOf c qn
  before k (q.msgs.head?.map (·.1)) || q.slots.any fun x => before k x.2.ready

/-- A message or READY slot is present for a receive executing in the cycle to come (R159, R162, R168, Table 7.3). -/
def queuePresent (k : Channel) (c : Core) (qn : Nat) : Bool :=
  let q := queueOf c qn
  before k (q.msgs.head?.map (·.1)) || before k (hslotOf q q.next).ready

end Sys2Proof.Machine
end

