-- ==== Sys2Proof/Machine/Brake.lean ====
section
/-! DEFINITION. Brake: the brake's causes, its end and its account (R228-R232), throttle gaps (R233), stretched periods (R220) and
operating points (R221, R222). -/

namespace Sys2Proof.Machine

/-! ### Causes (Table 10.3) -/

/-- The item of a ring slot is written before the cycle to come (R145). -/
def landedBefore (k : Channel) (core ring slot : Nat) : Bool :=
  before k (slotOf (ringOf (coreOf k core) ring) slot).landed

/-- Every put of a ring that an sdrain waits for completed before the cycle to come (R147). -/
def putsBefore (k : Channel) (core ring : Nat) : Bool :=
  (ringOf (coreOf k core) ring).puts.all fun p => before k p.doneAt

/-- A cause still holds: the test of Table 10.3 on the state at the start of the cycle to come. -/
def condHolds (k : Channel) (c : Cause) : Bool :=
  match c.cond with
  | .landed core ring slot => !landedBefore k core ring slot
  | .remote core ring slot => !landedBefore k core ring slot
  | .putsDone core ring => !putsBefore k core ring
  | .egress core => (coreOf k core).egress.any fun e => decide (e.next ≤ schedNow k)
  | .cycles n => decide (0 < n)
  | .message core qn => !queuePresent k (coreOf k core) qn

/-- The order of causes raised in one cycle (Table 10.7, CAUSE, CLUSTER and CORE): by code, then by core. -/
def causeFirst (a b : Cause) : Cause :=
  if b.code < a.code ∨ (b.code = a.code ∧ b.core < a.core) then b else a

/-- A cause raised in schedule cycle `c` (R228): it joins the causes of that cycle, or an episode begins after it. -/
def raiseCause (s : State) (ch c : Nat) (x : Cause) : State :=
  updCh s ch fun k =>
    let b := k.brake
    let m := b.mask ||| 2 ^ (x.code - 1)
    if b.isOn then
      { k with brake := { b with causes := b.causes ++ [x], mask := m, first := if b.sched = c then causeFirst b.first x else b.first } }
    else
      { k with brake := { b with isOn := true, len := 0, causes := [x], first := x, ft := 0, sched := c, mask := 2 ^ (x.code - 1) } }

/-! ### The log (Table 10.7) -/

/-- The 256 bits of Table 10.7. `who` gives cluster, core and job where the first cause is no core's (DEDUCED: assumption log, 12). -/
def brakeEntry (k : Channel) (who : Nat) : Nat :=
  let b := k.brake
  let core := if b.first.code = 8 then bits who 0 7 else b.first.core
  let job := if b.first.code = 8 then bits who 16 16 else (coreOf k core).job
  b.ft % 2 ^ 64 * 2 ^ 192 + b.sched % 2 ^ 64 * 2 ^ 128 + min b.len 0xFFFFFFFF * 2 ^ 96 + b.first.code * 2 ^ 88 + core / 16 % 8 * 2 ^ 77 +
    core % 16 * 2 ^ 73 + (if b.first.code ≤ 3 then b.first.ring % 32 else 0) * 2 ^ 68 + job * 2 ^ 48 + b.mask % 256 * 2 ^ 32

/-! ### Braked cycles and the end of an episode -/

/-- The causes a braked cycle is charged to: every cause raised in the first cycle; those that hold, in a later one (R228). -/
def causesIn (k : Channel) : List Cause :=
  if k.brake.len = 0 then k.brake.causes else k.brake.causes.filter (condHolds k)

/-- The lowest code among causes, the first cause's where none is left. -/
def lowestCode (k : Channel) (l : List Cause) : Nat :=
  l.foldl (fun m c => min m c.code) (if l = [] then k.brake.first.code else 8)

/-- A cause after one braked cycle. -/
def causeAge (x : Cause) : Cause :=
  match x.cond with
  | .cycles n => { x with cond := .cycles (n - 1) }
  | _ => x

/-- One braked cycle of a channel (R231): counted, and charged to the lowest-coded cause that holds. -/
def brakedCycle (s : State) (ch : Nat) : State :=
  let k := getCh s ch
  let code := lowestCode k (causesIn k)
  let s := dAdd (dAdd s (cIdx ch 0x101) 1 64 1) (cIdx ch 0x102) code 64 1
  updCh s ch fun k => { k with
    brake := { k.brake with
      len := k.brake.len + 1
      ft := if k.brake.len = 0 then k.ft else k.brake.ft
      causes := k.brake.causes.map causeAge } }

/-- The brake is due to end: at least one cycle was braked and no cause holds (R228). -/
def brakeEnds (k : Channel) : Bool :=
  brakeNow k && decide (k.brake.len ≠ 0) && !k.brake.causes.any (condHolds k)

/-- BRAKE_END (R228, R231): the episode is counted, its length compared and its entry logged as the newest of 64. -/
def execBrakeEnd (ch : ChId) (s : State) : Host.Outcome State Fault Refusal :=
  let n := ch.toNat
  let k := getCh s n
  if !brakeEnds k then .next s
  else
    let (f, s) := if k.brake.first.code = 8 then drawFree s else (0, s)
    let e := BitVec.ofNat 256 (brakeEntry k (freeNat f 0))
    let s := dAdd s (cIdx n 0x101) 2 64 1
    let s := cSet s n 0x101 3 (max (cGet s n 0x101 3) (min k.brake.len 0xFFFFFFFF))
    .next (updCh s n fun k => { k with
      brakeLog := (e :: k.brakeLog).take 64
      brake := { Brake.reset with gapCnt := k.brake.gapCnt } })

/-- BRAKE_LIMIT (R232): an episode that has reached CH_BRAKE_LIMIT cycles sends one event; the brake is not changed. -/
def execBrakeLimit (ch : ChId) (s : State) : Host.Outcome State Fault Refusal :=
  let n := ch.toNat
  let k := getCh s n
  if brakeNow k ∧ k.brake.len = cGet s n 0x101 4 ∧ k.brake.len ≠ 0 then
    let (f, s) := if k.brake.first.code = 8 then drawFree s else (0, s)
    .next (chEvent s n 0x0012 (if k.brake.first.code = 8 then 0xFFFF else (coreOf k k.brake.first.core).job)
      (leBytes 32 (brakeEntry k (freeNat f 0))))
  else .next s

/-- A throttle cycle is due: n − 1 schedule cycles have run under a gap n (R233). -/
def throttleDue (s : State) (ch : Nat) : Bool :=
  let gap := cGet s ch 0x100 9
  decide (2 ≤ gap) && decide (gap ≤ (getCh s ch).brake.gapCnt + 1)

/-- THROTTLE_BRAKE (R233, R230): after n − 1 schedule cycles under a gap n one cycle is braked under cause 0x08; a cycle that an episode
brakes absorbs it. -/
def execThrottleBrake (ch : ChId) (s : State) : Host.Outcome State Fault Refusal :=
  let n := ch.toNat
  let k := getCh s n
  if !throttleDue s n then .next s
  else
    let s := updCh s n fun k => { k with brake := { k.brake with gapCnt := 0 } }
    .next (if brakeNow k ∧ !brakeEnds k then s else raiseCause s n (k.sched - 1) ⟨8, 0, 0, .cycles 1⟩)

/-! ### Stretching (R220) -/

/-- DROOP_STRETCH: the region stretches its next periods, and every other region as many; results and counts stay (R220). Each period is
counted as it runs; a channel that is not Serving runs none. The wander it causes is left open (DESIGN CHOICE: assumption log, 13). -/
def execDroopStretch (ch : ChId) (_region : BitVec 3) (periods : BitVec 4) (permille : BitVec 9) (s : State) :
    Host.Outcome State Fault Refusal :=
  let n := ch.toNat
  if (getCh s n).st ≠ .serving then .next s
  else
    let (f, s) := drawFree s
    .next (updCh s n fun k => { k with
      stretch := k.stretch ++ List.replicate periods.toNat (min 500 permille.toNat)
      wander := max k.wander (freeNat f 0 % 4) })

/-! ### Operating points (R221, R222) -/

/-- CH_OPPOINT_CEIL (R245): the lowest OPCEIL of the slots that count for the channel, 850 with none. A slot has tasks placed in the
channel from its TASKS section on. -/
def opCeil (s : State) (ch : Nat) : Nat :=
  (s.hub.jobs.filter fun e => jobLive e.2 && (e.2.st != .receiving || e.2.hdrOk) && e.2.tasks.any fun t => t.2 / 128 == ch).foldl
    (fun m e => min m e.2.opceil) 850

/-- The first multiple of 1,024 ticks at least 50,000 ticks after a time (R221). -/
def agreedTime (ft : Nat) : Nat :=
  (ft + 50000 + 1023) / 1024 * 1024

/-- An operating-point request of a channel (R221): the cause of its refusal, or the request noted. -/
def oppRequest (s : State) (ch target time : Nat) : State × Option Nat :=
  let ft := (getCh s ch).ft
  if target ≠ 850 ∧ target ≠ 750 ∧ target ≠ 600 ∧ target ≠ 400 then (s, some 1)
  else if opCeil s ch < target then (s, some 2)
  else if time ≠ 0 ∧ time < ft + 50000 then (s, some 3)
  else
    let t := if time = 0 then agreedTime ft else time
    (cSet (updCh s ch fun k => { k with oppReq := some (target, t) }) ch 0x100 3 t, none)

/-- CH_OPPOINT_AT (R221): the request, or its refusal by an event. -/
def execChOppointAt (q : Req) (ch : ChId) (at_ : BitVec 64) (s : State) : Host.Outcome State Fault Refusal :=
  let n := ch.toNat
  .next (onWrite s q (cIdx n 0x100) 3 fun s =>
    let target := cGet s n 0x100 2
    match oppRequest s n target at_.toNat with
    | (s, none) => answer s q 0x00 []
    | (s, some cause) => answer (chEvent s n 0x0013 0xFFFF (leBytes 2 target ++ leBytes 1 cause)) q 0x09 [])

/-- OPPOINT_SWITCH (R222): at the first cycle boundary at or past the agreed time every region takes the new clock. -/
def execOppointSwitch (ch : ChId) (s : State) : Host.Outcome State Fault Refusal :=
  let n := ch.toNat
  match (getCh s n).oppReq with
  | some (target, t) =>
    if t ≤ (getCh s n).ft then .next (updCh s n fun k => { k with mhz := target, oppReq := none }) else .next s
  | none => .next s

end Sys2Proof.Machine
end

