-- ==== Sys2Proof/Machine/Sequencer.lean ====
section
/-! DEFINITION. Sequencer: the P slot (R31-R35, R38, R39) and the choice of the next ring address (R34). STEP stands with the steps. -/

namespace Sys2Proof.Machine

/-! ### Loop levels -/

/-- A loop level at task start (R30). -/
def Loop.reset : Loop :=
  { count := 0, shadow := 0, index := 0, start := 0, stop := 0, active := false }

/-- A loop level of a core. -/
def loopOf (k : Core) (l : Nat) : Loop :=
  tabGet k.loops Loop.reset l

/-- A loop level changed. -/
def updLoop (l : Nat) (f : Loop → Loop) (k : Core) : Core :=
  { k with loops := tabUpd k.loops Loop.reset l f }

/-- The innermost active level (R33). -/
def innerLoop (k : Core) : Option Nat :=
  [3, 2, 1, 0].find? fun l => (loopOf k l).active

/-- One active level, and above it those already left (R34): the levels tested from the highest down. -/
def seqLevels (last : Nat) : List Nat → Nat × Core → Nat × Core
  | [], r => r
  | l :: ls, (next, k) =>
    let p := loopOf k l
    if !p.active then seqLevels last ls (next, k)
    else if last ≠ p.stop then (next, k)
    else if p.index + 1 < p.shadow then (p.start, updLoop l (fun p => { p with index := p.index + 1 }) k)
    else seqLevels last ls (next, updLoop l (fun p => { p with active := false }) k)

/-- The loop sequencer after a row word with no loop instruction (R34). -/
def seqNext (k : Core) : Core :=
  let r := seqLevels k.pc [3, 2, 1, 0] ((k.pc + 1) % 4096, k)
  { r.2 with pc := r.1 }

/-- The loop sequencer after a loop instruction of count n (R31, R34). -/
def seqLoop (l n len : Nat) (k : Core) : Core :=
  if n = 0 then
    let r := seqLevels ((k.pc + len) % 4096) [3, 2, 1, 0] ((k.pc + len + 1) % 4096, k)
    { r.2 with pc := r.1 }
  else
    let k' := updLoop l (fun p => { p with shadow := n, index := 0, start := (k.pc + 1) % 4096, stop := (k.pc + len) % 4096,
                                            active := true }) k
    { k' with pc := (k.pc + 1) % 4096 }

/-! ### Conditions at issue -/

/-- The count a loop instruction takes (R31). -/
def loopCount (k : Core) (lvl : BitVec 2) (src : Bool) (gi : BitVec 4) : Nat :=
  if src then (gReg k gi.toNat).toNat else (loopOf k lvl.toNat).count

/-- The loop row or its body lies outside the innermost active body (R33). -/
def bodyOutside (k : Core) (len : Nat) : Bool :=
  match innerLoop k with
  | none => false
  | some l =>
    let p := loopOf k l
    decide ((p.stop + 4096 - p.start) % 4096 < (k.pc + 4096 - p.start) % 4096 + len)

/-- The conditions of a loop instruction (R25, R31, R33). -/
def loopFault (k : Core) (lvl : BitVec 2) (src : Bool) (gi : BitVec 4) (rsv : BitVec 9) (len : BitVec 12) : Option Nat :=
  firstFault [(rsv != 0 || (!src && gi != 0), 0x08), (len == 0, 0x09),
    ((innerLoop k).any fun l => decide (lvl.toNat ≤ l), 0x0A), (bodyOutside k len.toNat, 0x0B),
    (src && decide (16777215 < loopCount k lvl src gi), 0x16)]

/-- A reserved field must be zero (R25). -/
def rsvFault {w : Nat} (rsv : BitVec w) : Option Nat :=
  if rsv = 0 then none else some 0x08

/-- The conditions of a skip instruction (Table 2.2). -/
def skipFault (rsv : BitVec 11) (win : BitVec 6) : Option Nat :=
  firstFault [(rsv != 0, 0x08), (win == 0, 0x09)]

/-- A g register meets a skip's or hlt's sense: zero, or not zero (Table 2.2). -/
def senseHolds (k : Core) (gi : BitVec 4) (sense : Bool) : Bool :=
  if sense then gReg k gi.toNat != 0 else gReg k gi.toNat == 0

/-- What an hlt halts with (R39): its encoding's reason, or its own when the condition holds. -/
def hltFault (k : Core) (gi : BitVec 4) (sense : Bool) (rsv : BitVec 15) (reason : BitVec 8) : Option Nat :=
  firstFault [(rsv != 0, 0x08), (decide (reason.toNat < 0x90 ∨ 0x9F < reason.toNat), 0x12), (senseHolds k gi sense, reason.toNat)]

/-! ### Meanings -/

/-- LOOP (R31, R33, R34). -/
def execLoop (c : CoreId) (lvl : BitVec 2) (src : Bool) (gi : BitVec 4) (rsv : BitVec 9) (len : BitVec 12) (s : State) :
    Host.Outcome State Fault Refusal :=
  let k := startCore s c
  .next (issue s c 0 (loopFault k lvl src gi rsv len) fun s =>
    updCore s c (seqLoop lvl.toNat (loopCount k lvl src gi) len.toNat))

/-- SETC (R32). -/
def execSetc (c : CoreId) (lvl : BitVec 2) (rsv : BitVec 2) (cnt : BitVec 24) (s : State) : Host.Outcome State Fault Refusal :=
  .next (issue s c 0 (rsvFault rsv) fun s => updCore s c (updLoop lvl.toNat fun p => { p with count := cnt.toNat }))

/-- SKIP (R35). -/
def execSkip (c : CoreId) (gi : BitVec 4) (sense : Bool) (mask : BitVec 6) (rsv : BitVec 11) (win : BitVec 6) (s : State) :
    Host.Outcome State Fault Refusal :=
  .next (issue s c 0 (skipFault rsv win) fun s =>
    if senseHolds (startCore s c) gi sense then updCore s c fun k => { k with skips := k.skips ++ [⟨mask, win.toNat⟩] } else s)

/-- DONE (R38): the task's fetch stops once this row word has issued. -/
def execDone (c : CoreId) (rsv : BitVec 28) (s : State) : Host.Outcome State Fault Refusal :=
  .next (issue s c 0 (rsvFault rsv) fun s => updCore s c fun k => { k with status := .done, doneAt := some (k.sched + 1) })

/-- HLT (R39). -/
def execHlt (c : CoreId) (gi : BitVec 4) (sense : Bool) (rsv : BitVec 15) (reason : BitVec 8) (s : State) :
    Host.Outcome State Fault Refusal :=
  .next (issue s c 0 (hltFault (startCore s c) gi sense rsv reason) fun s => s)

end Sys2Proof.Machine
end

