-- ==== Sys2Proof/Machine/Coachman.lean ====
section
/-! DEFINITION. Coachman: the C slot (R40-R43, Tables 2.3-2.5). Engine control registers stand in Ecr. -/

namespace Sys2Proof.Machine

/-! ### Operations (R40, Table 2.4) -/

/-- The low half of a word's product with another. -/
def wMul (a b : Word) : Word := a * b

/-- The high half of the signed product. -/
def wMulh (a b : Word) : Word :=
  BitVec.ofInt 32 (a.toInt * b.toInt / 2 ^ 32)

/-- The high half of the unsigned product. -/
def wMulhu (a b : Word) : Word :=
  BitVec.ofNat 32 (a.toNat * b.toNat / 2 ^ 32)

/-- The signed minimum. -/
def wMin (a b : Word) : Word := if a.slt b then a else b

/-- The signed maximum. -/
def wMax (a b : Word) : Word := if a.slt b then b else a

/-- A truth as 1 or 0. -/
def wBool (b : Bool) : Word := if b then 1 else 0

/-- A shift amount: the low five bits (R40). -/
def shamt (b : Word) : Nat := b.toNat % 32

/-- The count of leading zeros, 32 for zero. -/
def wClz (a : Word) : Word :=
  BitVec.ofNat 32 ((List.range 32).takeWhile fun i => !a.getLsbD (31 - i)).length

/-- The count of one bits. -/
def wPopc (a : Word) : Word :=
  BitVec.ofNat 32 ((List.range 32).filter fun i => a.getLsbD i).length

/-! ### Shapes -/

/-- A C-slot instruction that writes rd from the registers at the start of the cycle (R26). -/
def coach (s : State) (c : CoreId) (fault : Option Nat) (rd : BitVec 4) (v : Core → Word) : Host.Outcome State Fault Refusal :=
  .next (issue s c 1 fault fun s => updCore s c (setG rd.toNat (v (startCore s c))))

/-- Format R (Table 2.3): rd from rs1 and rs2. -/
def coachR (s : State) (c : CoreId) (rd rs1 rs2 : BitVec 4) (rsv : BitVec 14) (f : Word → Word → Word) :
    Host.Outcome State Fault Refusal :=
  coach s c (rsvFault rsv) rd fun k => f (gReg k rs1.toNat) (gReg k rs2.toNat)

/-- Format R with rs2 zero (Table 2.4, clz and popc): its conditions. -/
def oneFault (rs2 : BitVec 4) (rsv : BitVec 14) : Option Nat :=
  if rs2 = 0 ∧ rsv = 0 then none else some 0x08

/-- Format R with rs2 zero: rd from rs1. -/
def coachOne (s : State) (c : CoreId) (rd rs1 rs2 : BitVec 4) (rsv : BitVec 14) (f : Word → Word) : Host.Outcome State Fault Refusal :=
  coach s c (oneFault rs2 rsv) rd fun k => f (gReg k rs1.toNat)

/-- Format I (Table 2.3): rd from rs1 and imm18. -/
def coachI (s : State) (c : CoreId) (rd rs1 : BitVec 4) (imm : BitVec 18) (f : Word → BitVec 18 → Word) :
    Host.Outcome State Fault Refusal :=
  coach s c none rd fun k => f (gReg k rs1.toNat) imm

/-- The conditions of an immediate shift: imm18[17:5] zero (Table 2.4). -/
def shiftFault (imm : BitVec 18) : Option Nat :=
  if imm.toNat < 32 then none else some 0x08

/-- An immediate shift. -/
def coachShift (s : State) (c : CoreId) (rd rs1 : BitVec 4) (imm : BitVec 18) (f : Word → Nat → Word) :
    Host.Outcome State Fault Refusal :=
  coach s c (shiftFault imm) rd fun k => f (gReg k rs1.toNat) imm.toNat

/-- A load of n bytes (R41): the data memory as it stood at the start of the cycle. -/
def coachLoad (s : State) (c : CoreId) (rd base : BitVec 4) (off : BitVec 18) (n : Nat) (f : Nat → Word) :
    Host.Outcome State Fault Refusal :=
  let ea := effAddr (startCore s c) base off
  coach s c (dataFault (startCore s c) ea n false) rd fun k => f (leNat (memRead k.dmem ea n))

/-- A store of n bytes (R41, R252). -/
def coachStore (s : State) (c : CoreId) (rs base : BitVec 4) (off : BitVec 18) (n : Nat) : Host.Outcome State Fault Refusal :=
  let k0 := startCore s c
  let ea := effAddr k0 base off
  .next (issue s c 1 (dataFault k0 ea n true) fun s =>
    updCore s c fun k => { k with dmem := memWrite k.dmem ea (leBytes n (gReg k0 rs.toNat).toNat) })

/-! ### Meanings (Table 2.4) -/

/-- ADD (R41): rd := rs1 + rs2. -/
def execAdd (c : CoreId) (rd rs1 rs2 : BitVec 4) (rsv : BitVec 14) (s : State) : Host.Outcome State Fault Refusal :=
  coachR s c rd rs1 rs2 rsv (fun a b => a + b)

/-- SUB (R41): rd := rs1 − rs2. -/
def execSub (c : CoreId) (rd rs1 rs2 : BitVec 4) (rsv : BitVec 14) (s : State) : Host.Outcome State Fault Refusal :=
  coachR s c rd rs1 rs2 rsv (fun a b => a - b)

/-- MUL (R41): low half of the product. -/
def execMul (c : CoreId) (rd rs1 rs2 : BitVec 4) (rsv : BitVec 14) (s : State) : Host.Outcome State Fault Refusal :=
  coachR s c rd rs1 rs2 rsv wMul

/-- MULH (R41): high half of the signed product. -/
def execMulh (c : CoreId) (rd rs1 rs2 : BitVec 4) (rsv : BitVec 14) (s : State) : Host.Outcome State Fault Refusal :=
  coachR s c rd rs1 rs2 rsv wMulh

/-- MULHU (R41): high half of the unsigned product. -/
def execMulhu (c : CoreId) (rd rs1 rs2 : BitVec 4) (rsv : BitVec 14) (s : State) : Host.Outcome State Fault Refusal :=
  coachR s c rd rs1 rs2 rsv wMulhu

/-- MIN (R41): signed minimum. -/
def execMin (c : CoreId) (rd rs1 rs2 : BitVec 4) (rsv : BitVec 14) (s : State) : Host.Outcome State Fault Refusal :=
  coachR s c rd rs1 rs2 rsv wMin

/-- MAX (R41): signed maximum. -/
def execMax (c : CoreId) (rd rs1 rs2 : BitVec 4) (rsv : BitVec 14) (s : State) : Host.Outcome State Fault Refusal :=
  coachR s c rd rs1 rs2 rsv wMax

/-- AND (R41): bitwise and. -/
def execAnd (c : CoreId) (rd rs1 rs2 : BitVec 4) (rsv : BitVec 14) (s : State) : Host.Outcome State Fault Refusal :=
  coachR s c rd rs1 rs2 rsv (fun a b => a &&& b)

/-- OR (R41): bitwise or. -/
def execOr (c : CoreId) (rd rs1 rs2 : BitVec 4) (rsv : BitVec 14) (s : State) : Host.Outcome State Fault Refusal :=
  coachR s c rd rs1 rs2 rsv (fun a b => a ||| b)

/-- XOR (R41): bitwise exclusive or. -/
def execXor (c : CoreId) (rd rs1 rs2 : BitVec 4) (rsv : BitVec 14) (s : State) : Host.Outcome State Fault Refusal :=
  coachR s c rd rs1 rs2 rsv (fun a b => a ^^^ b)

/-- SLL (R41): shift left. -/
def execSll (c : CoreId) (rd rs1 rs2 : BitVec 4) (rsv : BitVec 14) (s : State) : Host.Outcome State Fault Refusal :=
  coachR s c rd rs1 rs2 rsv (fun a b => a <<< shamt b)

/-- SRL (R41): shift right, zero fill. -/
def execSrl (c : CoreId) (rd rs1 rs2 : BitVec 4) (rsv : BitVec 14) (s : State) : Host.Outcome State Fault Refusal :=
  coachR s c rd rs1 rs2 rsv (fun a b => a >>> shamt b)

/-- SRA (R41): shift right, sign fill. -/
def execSra (c : CoreId) (rd rs1 rs2 : BitVec 4) (rsv : BitVec 14) (s : State) : Host.Outcome State Fault Refusal :=
  coachR s c rd rs1 rs2 rsv (fun a b => a.sshiftRight (shamt b))

/-- SEQ (R41): rs1 = rs2. -/
def execSeq (c : CoreId) (rd rs1 rs2 : BitVec 4) (rsv : BitVec 14) (s : State) : Host.Outcome State Fault Refusal :=
  coachR s c rd rs1 rs2 rsv (fun a b => wBool (a == b))

/-- SNE (R41): rs1 ≠ rs2. -/
def execSne (c : CoreId) (rd rs1 rs2 : BitVec 4) (rsv : BitVec 14) (s : State) : Host.Outcome State Fault Refusal :=
  coachR s c rd rs1 rs2 rsv (fun a b => wBool (a != b))

/-- SLT (R41): rs1 < rs2, signed. -/
def execSlt (c : CoreId) (rd rs1 rs2 : BitVec 4) (rsv : BitVec 14) (s : State) : Host.Outcome State Fault Refusal :=
  coachR s c rd rs1 rs2 rsv (fun a b => wBool (a.slt b))

/-- SLTU (R41): rs1 < rs2, unsigned. -/
def execSltu (c : CoreId) (rd rs1 rs2 : BitVec 4) (rsv : BitVec 14) (s : State) : Host.Outcome State Fault Refusal :=
  coachR s c rd rs1 rs2 rsv (fun a b => wBool (a.ult b))

/-- SEL (R41): rs1 when the old rd is not zero, else rs2. -/
def execSel (c : CoreId) (rd rs1 rs2 : BitVec 4) (rsv : BitVec 14) (s : State) : Host.Outcome State Fault Refusal :=
  coach s c (rsvFault rsv) rd fun k => if gReg k rd.toNat = 0 then gReg k rs2.toNat else gReg k rs1.toNat

/-- CLZ (R41). -/
def execClz (c : CoreId) (rd rs1 rs2 : BitVec 4) (rsv : BitVec 14) (s : State) : Host.Outcome State Fault Refusal :=
  coachOne s c rd rs1 rs2 rsv wClz

/-- POPC (R41). -/
def execPopc (c : CoreId) (rd rs1 rs2 : BitVec 4) (rsv : BitVec 14) (s : State) : Host.Outcome State Fault Refusal :=
  coachOne s c rd rs1 rs2 rsv wPopc

/-- ADDI (R41): rs1 + sext(imm18). -/
def execAddi (c : CoreId) (rd rs1 : BitVec 4) (imm : BitVec 18) (s : State) : Host.Outcome State Fault Refusal :=
  coachI s c rd rs1 imm (fun a i => a + sext18 i)

/-- ANDI (R41): rs1 and zext(imm18). -/
def execAndi (c : CoreId) (rd rs1 : BitVec 4) (imm : BitVec 18) (s : State) : Host.Outcome State Fault Refusal :=
  coachI s c rd rs1 imm (fun a i => a &&& i.setWidth 32)

/-- ORI (R41): rs1 or zext(imm18). -/
def execOri (c : CoreId) (rd rs1 : BitVec 4) (imm : BitVec 18) (s : State) : Host.Outcome State Fault Refusal :=
  coachI s c rd rs1 imm (fun a i => a ||| i.setWidth 32)

/-- XORI (R41): rs1 xor zext(imm18). -/
def execXori (c : CoreId) (rd rs1 : BitVec 4) (imm : BitVec 18) (s : State) : Host.Outcome State Fault Refusal :=
  coachI s c rd rs1 imm (fun a i => a ^^^ i.setWidth 32)

/-- SEQI (R41): rs1 = sext(imm18). -/
def execSeqi (c : CoreId) (rd rs1 : BitVec 4) (imm : BitVec 18) (s : State) : Host.Outcome State Fault Refusal :=
  coachI s c rd rs1 imm (fun a i => wBool (a == sext18 i))

/-- SLTI (R41): rs1 < sext(imm18), signed. -/
def execSlti (c : CoreId) (rd rs1 : BitVec 4) (imm : BitVec 18) (s : State) : Host.Outcome State Fault Refusal :=
  coachI s c rd rs1 imm (fun a i => wBool (a.slt (sext18 i)))

/-- SLTIU (R41): rs1 < sext(imm18), unsigned. -/
def execSltiu (c : CoreId) (rd rs1 : BitVec 4) (imm : BitVec 18) (s : State) : Host.Outcome State Fault Refusal :=
  coachI s c rd rs1 imm (fun a i => wBool (a.ult (sext18 i)))

/-- SLLI (R41). -/
def execSlli (c : CoreId) (rd rs1 : BitVec 4) (imm : BitVec 18) (s : State) : Host.Outcome State Fault Refusal :=
  coachShift s c rd rs1 imm (fun a n => a <<< n)

/-- SRLI (R41). -/
def execSrli (c : CoreId) (rd rs1 : BitVec 4) (imm : BitVec 18) (s : State) : Host.Outcome State Fault Refusal :=
  coachShift s c rd rs1 imm (fun a n => a >>> n)

/-- SRAI (R41). -/
def execSrai (c : CoreId) (rd rs1 : BitVec 4) (imm : BitVec 18) (s : State) : Host.Outcome State Fault Refusal :=
  coachShift s c rd rs1 imm (fun a n => a.sshiftRight n)

/-- LI (R41): sext(imm22). -/
def execLi (c : CoreId) (rd : BitVec 4) (imm : BitVec 22) (s : State) : Host.Outcome State Fault Refusal :=
  coach s c none rd fun _ => imm.signExtend 32

/-- LUI (R41): imm22 << 10. -/
def execLui (c : CoreId) (rd : BitVec 4) (imm : BitVec 22) (s : State) : Host.Outcome State Fault Refusal :=
  coach s c none rd fun _ => imm.setWidth 32 <<< 10

/-- LW (R41). -/
def execLw (c : CoreId) (rd base : BitVec 4) (off : BitVec 18) (s : State) : Host.Outcome State Fault Refusal :=
  coachLoad s c rd base off 4 (fun v => BitVec.ofNat 32 v)

/-- LH (R41). -/
def execLh (c : CoreId) (rd base : BitVec 4) (off : BitVec 18) (s : State) : Host.Outcome State Fault Refusal :=
  coachLoad s c rd base off 2 (fun v => (BitVec.ofNat 16 v).signExtend 32)

/-- LHU (R41). -/
def execLhu (c : CoreId) (rd base : BitVec 4) (off : BitVec 18) (s : State) : Host.Outcome State Fault Refusal :=
  coachLoad s c rd base off 2 (fun v => BitVec.ofNat 32 v)

/-- LB (R41). -/
def execLb (c : CoreId) (rd base : BitVec 4) (off : BitVec 18) (s : State) : Host.Outcome State Fault Refusal :=
  coachLoad s c rd base off 1 (fun v => (BitVec.ofNat 8 v).signExtend 32)

/-- LBU (R41). -/
def execLbu (c : CoreId) (rd base : BitVec 4) (off : BitVec 18) (s : State) : Host.Outcome State Fault Refusal :=
  coachLoad s c rd base off 1 (fun v => BitVec.ofNat 32 v)

/-- SW (R41, R252). -/
def execSw (c : CoreId) (rd base : BitVec 4) (off : BitVec 18) (s : State) : Host.Outcome State Fault Refusal :=
  coachStore s c rd base off 4

/-- SH (R41, R252). -/
def execSh (c : CoreId) (rd base : BitVec 4) (off : BitVec 18) (s : State) : Host.Outcome State Fault Refusal :=
  coachStore s c rd base off 2

/-- SB (R41, R252). -/
def execSb (c : CoreId) (rd base : BitVec 4) (off : BitVec 18) (s : State) : Host.Outcome State Fault Refusal :=
  coachStore s c rd base off 1

/-- The conditions of an mtc (R25, R41). -/
def mtcFault (k : Core) (gi : BitVec 4) (rsv : BitVec 20) : Option Nat :=
  firstFault [(rsv != 0, 0x08), (decide (16777215 < (gReg k gi.toNat).toNat), 0x16)]

/-- MTC (R32, R41): the count register of a level. -/
def execMtc (c : CoreId) (lvl : BitVec 2) (gi : BitVec 4) (rsv : BitVec 20) (s : State) : Host.Outcome State Fault Refusal :=
  let k := startCore s c
  .next (issue s c 1 (mtcFault k gi rsv) fun s => updCore s c (updLoop lvl.toNat fun p => { p with count := (gReg k gi.toNat).toNat }))

/-- MFL (R41): the index register of a level. -/
def execMfl (c : CoreId) (lvl : BitVec 2) (gi : BitVec 4) (rsv : BitVec 20) (s : State) : Host.Outcome State Fault Refusal :=
  coach s c (rsvFault rsv) gi fun k => BitVec.ofNat 32 (loopOf k lvl.toNat).index

/-- The conditions of an rdt (Table 2.5). -/
def rdtFault (sel : BitVec 3) (rsv : BitVec 19) : Option Nat :=
  firstFault [(decide (6 ≤ sel.toNat), 0x02), (rsv != 0, 0x08)]

/-- RDT (R42, Table 2.5): a low read latches the high half of the same counter. -/
def execRdt (c : CoreId) (rd : BitVec 4) (sel : BitVec 3) (rsv : BitVec 19) (s : State) : Host.Outcome State Fault Refusal :=
  let k := startCore s c
  let ft := (getCh s (chOf c)).ft
  let lo := fun (v : Nat) => BitVec.ofNat 32 v
  let hi := fun (v : Nat) => BitVec.ofNat 32 (v / 2 ^ 32)
  .next (issue s c 1 (rdtFault sel rsv) fun s => updCore s c fun x =>
    match sel.toNat with
    | 0 => setG rd.toNat (lo k.step) { x with hiStep := hi k.step }
    | 1 => setG rd.toNat k.hiStep x
    | 2 => setG rd.toNat (lo ft) { x with hiFt := hi ft }
    | 3 => setG rd.toNat k.hiFt x
    | 4 => setG rd.toNat (lo k.sched) { x with hiSched := hi k.sched }
    | _ => setG rd.toNat k.hiSched x)

end Sys2Proof.Machine
end

