-- ==== Sys2Proof/Machine/Hazard.lean ====
section
/-! DEFINITION. Hazard: what the hazard detector of debug images finds (R247, Tables 11.16, 6.2): reads of registers and units whose
writes are on their way, slots read or written out of turn, and accesses that meet in one cycle. It only observes. -/

namespace Sys2Proof.Machine

/-- Two ranges have an element in common. -/
def meets (a n b m : Nat) : Bool :=
  decide (a < b + m) && decide (b < a + n)

/-- The detector is active for a core's task: a debug image while LDR_DEBUG is true. -/
def detects (s : State) (c : CoreId) : Bool :=
  decide (dGet s 0x0600 2 = 1) && (getJob s (getCore s c).job).debug

/-! ### Kinds 0x01 and 0x09: reads -/

/-- What an instruction reads at issue: registers by number, or scratchpad units. -/
inductive Src where
  | vreg (r : Nat)
  | acc (a : Nat)
  | group (j : Nat)
  | laneOp
  | bcast
  | laneSt (n : Nat)
  | units (u n : Nat)
deriving DecidableEq, Repr

/-- An M operation changes an accumulator at its update stage. -/
def MOp.hits : MOp → Nat → Bool
  | .fast a _, b => a == b
  | .exact g _, b => g == b / 4
  | .clear g _ _, b => g == b / 4
  | .image g _, b => g == b / 4

/-- A load of a kind to a register is on its way. -/
def loadPending (k : Core) (kind reg : Nat) : Bool :=
  k.lPipe.any fun i => i.kind == kind && i.reg == reg

/-- An accumulator has an update or a preload on its way. -/
def accPending (k : Core) (a : Nat) : Bool :=
  (k.mPipe.any fun m => m.op.hits a) || loadPending k 4 a

/-- A write by an earlier instruction to what is read has not reached its latency (kind 0x01). -/
def srcPending (k : Core) : Src → Bool
  | .vreg r => loadPending k 0 r || k.vPipe.any (fun i => i.vd == r) || k.drains.any fun i => i.unit.isNone && i.vd == r
  | .acc a => accPending k a
  | .group j => (List.range 4).any fun m => accPending k (4 * j + m)
  | .laneOp => loadPending k 1 0
  | .bcast => loadPending k 2 0
  | .laneSt n => loadPending k 3 n
  | .units u n =>
    (k.drains.any fun i => i.unit.any fun v => meets v 16 u n) ||
      k.fill.any fun b => b.kind == .recv && b.writes.any fun w => meets (w.1 / 32) ((w.2.length + 31) / 32) u n

/-- The register or unit number the log names. -/
def srcNumber : Src → Nat
  | .vreg r => r
  | .acc a => a
  | .group j => 4 * j
  | .laneOp => 0
  | .bcast => 0
  | .laneSt n => n
  | .units u _ => u

/-- The rings with a slot that a range of units meets, of the slots a test names. -/
def slotsMet (k : Core) (u n : Nat) (p : RSlot → Bool) : List Nat :=
  (k.rings.filter fun g => match g.2.desc with
    | none => false
    | some d => d.kind != 1 && g.2.slots.any fun x => p x.2 && meets (slotUnit d x.1) (slotBytes d / 32) u n).map (·.1)

/-- The rings whose issued slots are read before their due cycle (kind 0x09): units read in the next cycle. -/
def srcMasked (now : Nat) (k : Core) : Src → List Nat
  | .units u n => slotsMet k u n fun x => slotMasked x (now + 1)
  | _ => []

/-- What an instruction of a slot reads, looked at by the detector (R247, kinds 0x01 and 0x09). -/
def readHazards (s : State) (c : CoreId) (slot : Nat) (srcs : List Src) : State :=
  if !detects s c then s
  else
    let k := startCore s c
    srcs.foldl (fun s x =>
      let s := if srcPending k x then hazard s c 0x01 slot k.pc k.sched (srcNumber x) else s
      (srcMasked (getCh s (chOf c)).sched k x).foldl (fun s r => hazard s c 0x09 slot k.pc k.sched (srcNumber x + r * 2 ^ 16)) s) s

/-! ### Kinds 0x02 to 0x05: landings that meet -/

/-- The later of two instructions: by issue cycle, then by slot (R51). -/
def laterOrigin (a b : Origin) : Origin :=
  if a.cyc < b.cyc ∨ (a.cyc = b.cyc ∧ a.slot ≤ b.slot) then b else a

/-- A hazard logged with an instruction in flight. -/
def hazardOf (s : State) (c : CoreId) (kind : Nat) (o : Origin) (detail : Nat) : State :=
  hazard s c kind o.slot o.pc o.cyc detail

/-- The origins of what discards an L landing in a cycle: a V result or an mdrn at its vector register, an update at its accumulator. -/
def landRivals (k : Core) (i : LItem) : List Origin :=
  if i.kind = 0 then
    (k.vPipe.filter fun x => x.due == i.due && x.vd == i.reg).map (·.org) ++
      (k.drains.filter fun x => x.due == i.due && x.unit.isNone && x.vd == i.reg).map (·.org)
  else if i.kind = 4 then (k.mPipe.filter fun m => m.due == i.due && m.op.hits i.reg).map (·.org)
  else []

/-- L landings of a cycle looked at (kinds 0x02 and 0x03). -/
def landHazards (s : State) (c : CoreId) (items : List LItem) : State :=
  if !detects s c then s
  else
    let k := getCore s c
    items.foldl (fun s i => (landRivals k i).foldl (fun s o =>
      hazardOf s c (if i.kind = 0 then 0x02 else 0x03) (laterOrigin i.org o) i.reg) s) s

/-- Two V results at one register in a cycle, or a V result and one of the mdrns `drains` that land then (R96, R116; kind 0x04,
DESIGN CHOICE: assumption log, 87): each pair once, named by the later. -/
def resultHazards (s : State) (c : CoreId) (drains : List VItem) : List VItem → State
  | [] => s
  | i :: r =>
    let s := if detects s c then
        ((r ++ drains).filter fun x => x.unit.isNone && x.vd == i.vd).foldl
          (fun s x => hazardOf s c 0x04 (laterOrigin i.org x.org) i.vd) s else s
    resultHazards s c drains r

/-! ### Kinds 0x05 to 0x0A: accesses to one row in one cycle, and slots written out of turn -/

/-- The engine writes of a cycle: those queued, and scratchpad drains due: unit and origin. -/
def engineWrites (now : Nat) (k : Core) : List (Nat × Origin) :=
  k.stq.map (fun w => (w.unit, w.org)) ++
    (k.drains.filter fun i => decide (i.due ≤ now)).filterMap fun i => i.unit.map fun u => (u, i.org)

/-- A scratchpad drain discards the store of its cycle (kind 0x05). -/
def drainHazards (s : State) (c : CoreId) (it : VItem) : State :=
  if it.unit.isNone ∨ !detects s c then s
  else (getCore s c).stq.foldl (fun s w => hazardOf s c 0x05 (laterOrigin it.org w.org) w.unit) s

/-- One engine write that meets a read of its row: logged with the later of the two, which of two cores is the writer's, a remote read
having issued 24 cycles before. -/
def rowPair (s : State) (reader c : CoreId) (o w : Origin) (detail : Nat) : State :=
  if reader = c then hazardOf s c 0x07 (laterOrigin o w) detail
  else if detects s c then hazardOf s c 0x07 w detail else hazardOf s reader 0x07 o detail

/-- A read of one row by the egress port or a remote reader in a cycle that writes the row (kind 0x07); a fill write is of no instruction
that issued later, and the read is named. -/
def rowHazard (s : State) (reader c : CoreId) (now unit ring : Nat) (fills : List (Nat × List Byte)) (o : Origin) : State :=
  let detail := unit + ring * 2 ^ 16
  let s := ((engineWrites now (getCore s c)).filter fun w => w.1 / 128 == unit / 128).foldl (fun s w => rowPair s reader c o w.2 detail) s
  if fills.any fun w => w.1 / 4096 == unit / 128 then hazardOf s reader 0x07 o detail else s

/-- A drain or a received message on its way to units that a port reads, issued before the read: `same` where the reader's instructions
are the core's own. -/
def unitsPending (k : Core) (same : Bool) (o : Origin) (u n : Nat) : Bool :=
  (k.drains.any fun i => (i.unit.any fun v => meets v 16 u n) && (!same || laterOrigin i.org o == o)) ||
    k.fill.any fun b => b.kind == .recv && b.writes.any fun w => meets (w.1 / 32) ((w.2.length + 31) / 32) u n

/-- The units that the egress port or a remote reader reads in a cycle, looked at for writes on their way (kind 0x01) and for slots that
are not due (kind 0x09). -/
def portHazards (s : State) (reader c : CoreId) (now unit n ring : Nat) (o : Origin) : State :=
  if !detects s reader then s
  else
    let k := getCore s c
    let s := if unitsPending k (reader = c) o unit n then hazardOf s reader 0x01 o unit else s
    if slotsMet k unit n (fun x => slotMasked x now) = [] then s else hazardOf s reader 0x09 o (unit + ring * 2 ^ 16)

/-- The puts with egress beats still to be read whose slot meets a range of units. -/
def putsRead (k : Core) (u n : Nat) : List Egress :=
  k.egress.filter fun e => e.msg.isNone && e.left != 0 &&
    meets (e.addr - 8 * (e.data.length / 256)) (8 * (e.left + e.data.length / 256)) u n

/-- The engine writes performed in a cycle looked at: into an ISSUED slot (kind 0x09), or a put slot with beats still to be read
(kind 0x0A, R147). -/
def writeHazards (s : State) (c : CoreId) : State :=
  if !detects s c then s
  else
    let k := getCore s c
    k.stq.foldl (fun s w =>
      let s := (slotsMet k w.unit 16 fun x => decide (x.st = .issued)).foldl (fun s r => hazardOf s c 0x09 w.org (w.unit + r * 2 ^ 16)) s
      ((putsRead k w.unit 16).foldl (fun s e => hazardOf s c 0x0A (laterOrigin e.org w.org) (w.unit + e.ring * 2 ^ 16)) s)) s

/-- A fill beat looked at: an engine write of the same bytes in the cycle (kind 0x06), and a put slot with beats still to be read
(kind 0x0A), whose sput is named. -/
def fillHazards (s : State) (c : CoreId) (ring : Nat) (ws : List (Nat × List Byte)) : State :=
  if !detects s c then s
  else
    let k := getCore s c
    let s := k.stq.foldl (fun s w =>
      if ws.any fun f => meets f.1 f.2.length (w.unit * 32) w.data.length then hazardOf s c 0x06 w.org (w.unit + ring * 2 ^ 16) else s) s
    ws.foldl (fun s f => (putsRead k (f.1 / 32) ((f.1 % 32 + f.2.length + 31) / 32)).foldl
      (fun s e => hazardOf s c 0x0A e.org (f.1 / 32 + e.ring * 2 ^ 16)) s) s

end Sys2Proof.Machine
end

