-- ==== Sys2Proof/Machine/Numerics.lean ====
section
/-! DEFINITION. Numerics: class N1 (R55): element formats, the two roundings, CG64, conversions, exact products, the exact
accumulator, fast addition, the block encoder and the weight-stream coding (R56-R73, R76). -/

namespace Sys2Proof.Machine

/-! ### Exact numbers -/

/-- A value an encoding stands for: NaN, an infinity, or (−1)^neg × m × 2^e, a zero keeping its sign (R56, R57). -/
inductive FV where
  | nan
  | inf (neg : Bool)
  | fin (neg : Bool) (m : Nat) (e : Int)
deriving DecidableEq, Repr

/-- Zero. -/
def Dy.zero : Dy := ⟨0, 0⟩

/-- A power of two for an exponent that is not negative; one below. -/
def pow2 (e : Int) : Nat := 2 ^ e.toNat

/-- A numerator at a finer exponent. -/
def Dy.numAt (d : Dy) (e : Int) : Int := d.num * (pow2 (d.exp - e) : Int)

/-- The exact sum. -/
def dyAdd (a b : Dy) : Dy :=
  let e := min a.exp b.exp
  ⟨a.numAt e + b.numAt e, e⟩

/-- The exact product. -/
def dyMul (a b : Dy) : Dy :=
  ⟨a.num * b.num, a.exp + b.exp⟩

/-- The exact sum of a list. -/
def dySum (l : List Dy) : Dy :=
  l.foldl dyAdd Dy.zero

/-- A finite value as a dyadic. -/
def dyOf (neg : Bool) (m : Nat) (e : Int) : Dy :=
  ⟨if neg then -(m : Int) else m, e⟩

/-- A dyadic as a finite value; a zero has sign +. -/
def fvOf (d : Dy) : FV :=
  .fin (decide (d.num < 0)) d.num.natAbs d.exp

/-- The dyadic of a value; none for NaN and infinities (R67). -/
def FV.dy (v : FV) : Option Dy :=
  match v with
  | .fin s m e => some (dyOf s m e)
  | _ => none

/-! ### Formats (Table 3.1) -/

/-- A floating format: exponent bits, fraction bits, bias, the bits of the largest finite value, the canonical NaN, and whether the
top exponent holds infinities and NaNs. -/
structure FFmt where
  eb   : Nat
  fb   : Nat
  bias : Nat
  big  : Nat
  cnan : Nat
  ieee : Bool
deriving DecidableEq, Repr

def fp32 : FFmt := ⟨8, 23, 127, 0x7F7FFFFF, 0x7FC00000, true⟩
def bf16 : FFmt := ⟨8, 7, 127, 0x7F7F, 0x7FC0, true⟩
def fp16 : FFmt := ⟨5, 10, 15, 0x7BFF, 0x7E00, true⟩
def e5m2 : FFmt := ⟨5, 2, 15, 0x7B, 0x7E, true⟩
def e4m3 : FFmt := ⟨4, 3, 7, 0x7E, 0x7F, false⟩

/-- The width of a format. -/
def FFmt.width (f : FFmt) : Nat := 1 + f.eb + f.fb

/-- The exponent of a format's smallest subnormal. -/
def FFmt.qmin (f : FFmt) : Int := 1 - (f.bias : Int) - f.fb

/-- The value of an encoding (R56, Table 3.1). -/
def decodeF (f : FFmt) (v : Nat) : FV :=
  let s := v.testBit (f.eb + f.fb)
  let e := bits v f.fb f.eb
  let m := bits v 0 f.fb
  if f.ieee ∧ e = 2 ^ f.eb - 1 then (if m = 0 then .inf s else .nan)
  else if !f.ieee ∧ e = 2 ^ f.eb - 1 ∧ m = 2 ^ f.fb - 1 then .nan
  else if e = 0 then .fin s m f.qmin
  else .fin s (2 ^ f.fb + m) (f.qmin + (e : Int) - 1)

/-- The value of an FP32 word. -/
def fv32 (w : Word) : FV := decodeF fp32 w.toNat

/-! ### Rounding -/

/-- How a step rounds: nearest-even, or stochastically with the 24 bits of a draw (R60, R61). -/
inductive Rnd where
  | rne
  | sr (r : Nat)
deriving DecidableEq, Repr

/-- m × 2^e over 2^q, rounded to an integer (R60, R61). -/
def roundQ (m : Nat) (e q : Int) (rnd : Rnd) : Nat :=
  if q ≤ e then m * pow2 (e - q)
  else
    let d := pow2 (q - e)
    let lo := m / d
    let rem := m % d
    match rnd with
    | .rne => if d < 2 * rem ∨ (2 * rem = d ∧ lo % 2 = 1) then lo + 1 else lo
    | .sr r => if 2 ^ 24 ≤ rem * 2 ^ 24 / d + r then lo + 1 else lo

/-- What a conversion gives: the bits and the flags it sets. -/
structure Conv where
  bits : Nat
  sat  : Bool
  nan  : Bool
deriving DecidableEq, Repr

/-- The sign bit of a format. -/
def signBit (f : FFmt) (neg : Bool) : Nat :=
  if neg then 2 ^ (f.eb + f.fb) else 0

/-- A value narrowed to a floating format (R57, R60, R61, Table 3.4). -/
def toF (f : FFmt) (rnd : Rnd) (v : FV) : Conv :=
  match v with
  | .nan => ⟨f.cnan, false, true⟩
  | .inf s => if f.ieee then ⟨signBit f s + f.big + 1, false, false⟩ else ⟨signBit f s + f.big, true, false⟩
  | .fin s 0 _ => ⟨signBit f s, false, false⟩
  | .fin s m e =>
    let q := max f.qmin ((Nat.log2 m : Int) + e - f.fb)
    let n := (q - f.qmin).toNat * 2 ^ f.fb + roundQ m e q rnd
    if f.big < n then ⟨signBit f s + f.big, true, false⟩ else ⟨signBit f s + n, false, false⟩

/-- A value times 2^q narrowed to an n-bit integer, as two's complement in n bits (Table 3.4). -/
def toI (n : Nat) (q : Int) (rnd : Rnd) (v : FV) : Conv :=
  match v with
  | .nan => ⟨0, false, true⟩
  | .inf s => ⟨if s then 2 ^ (n - 1) else 2 ^ (n - 1) - 1, true, false⟩
  | .fin s m e =>
    let r := roundQ m e (-q) rnd
    if s then (if 2 ^ (n - 1) < r then ⟨2 ^ (n - 1), true, false⟩ else ⟨(2 ^ n - r) % 2 ^ n, false, false⟩)
    else if 2 ^ (n - 1) ≤ r then ⟨2 ^ (n - 1) - 1, true, false⟩ else ⟨r, false, false⟩

/-- An exact value rounded to FP32 under RNE, a zero as +0 (R57, R72, R73). -/
def fp32Of (d : Dy) : Conv :=
  toF fp32 .rne (fvOf d)

/-! ### CG64 (R62, R63) -/

/-- A rotation left of 64 bits. -/
def rotl64 (v n : Nat) : Nat :=
  (v * 2 ^ n % 2 ^ 64) ||| (v / 2 ^ (64 - n))

/-- One round on x and y. -/
def cgRound (p : Nat × Nat) : Nat × Nat :=
  let x := (p.1 + p.2) % 2 ^ 64
  let y := rotl64 p.2 20 ^^^ x
  ((rotl64 x 36 + 0xD2E84B1796C03A5D) % 2 ^ 64, y)

/-- CG64 (R62). -/
def cg64 (seed step stream index : Nat) : Nat :=
  let p := cgRound (cgRound (seed ^^^ 0x71A4C3E90B5D268F, step % 2 ^ 64))
  let q := cgRound (cgRound (p.1, p.2 ^^^ (stream % 2 ^ 32 * 2 ^ 32 + index % 2 ^ 32)))
  q.1 ^^^ q.2

/-- The rounding of one draw: bits [63:40] (R61). -/
def srOf (draw : Nat) : Rnd := .sr (draw / 2 ^ 40)

/-- The value of an image seed slot of the job; none where the image does not define it (R63, R249). -/
def seedOf (s : State) (job n : Nat) : Option Nat :=
  match tabFind (getJob s job).seeds n with
  | some d => if d.mode = 0 then none else some d.value.toNat
  | none => none

/-! ### Blocks (R58, R59, R65) -/

/-- The value of a block element: mantissa of w bits under scale byte E; a NaN block's is NaN (R58, R59). -/
def blockElem (w : Nat) (e : Nat) (m : Int) : FV :=
  if e = 0xFF then .nan else fvOf ⟨m, (e : Int) - 127 - (w - 1)⟩

/-- A block encoded (R65): scale byte, mantissas as integers, flags. A NaN block's mantissas are the caller's free values. -/
structure BlockEnc where
  scale : Nat
  mants : List Int
  sat   : Bool
  nan   : Bool
deriving DecidableEq, Repr

/-- The magnitude and exponent of a value, zero for what is not finite. -/
def FV.mag (v : FV) : Nat × Int :=
  match v with
  | .fin _ m e => (m, e)
  | _ => (0, 0)

/-- Whether a value is an infinity or NaN. -/
def FV.bad (v : FV) : Bool :=
  match v with
  | .fin _ _ _ => false
  | _ => true

/-- The larger magnitude. -/
def magMax (a b : Nat × Int) : Nat × Int :=
  if (⟨a.1, a.2⟩ : Dy).numAt (min a.2 b.2) < (⟨b.1, b.2⟩ : Dy).numAt (min a.2 b.2) then b else a

/-- One mantissa at block exponent X: rounded, and clamped with its sign (R65, step 6). -/
def mantAt (w : Nat) (x : Int) (rnd : Rnd) (v : FV) : Int :=
  match v with
  | .fin s m e =>
    let r := min (roundQ m e (x - (w - 1)) rnd) (2 ^ (w - 1) - 1)
    if s then -(r : Int) else r
  | _ => 0

/-- The block encoder (R65): values beside their rounding. -/
def encodeBlock (w : Nat) (vs : List (FV × Rnd)) : BlockEnc :=
  if vs.any fun v => v.1.bad then ⟨0xFF, [], false, true⟩
  else
    let top := (vs.map fun v => v.1.mag).foldl magMax (0, 0)
    if top.1 = 0 then ⟨0, vs.map fun _ => 0, false, false⟩
    else
      let e := (Nat.log2 top.1 : Int) + top.2
      let x1 := if roundQ top.1 top.2 (e + 1 - (w - 1)) .rne = 2 ^ (w - 1) then e + 2 else e + 1
      let x2 := if x1 < -127 then -127 else x1
      let sat := decide (127 < x2)
      let x := if sat then 127 else x2
      ⟨(x + 127).toNat, vs.map fun v => mantAt w x v.2 v.1, sat, false⟩

/-! ### The exact accumulator (R68-R71) -/

/-- An exact accumulator at zero. -/
def ExAcc.reset : ExAcc :=
  { t := 0, n := 0, pos := false, neg := false, nan := false, ovf := false }

/-- The total as 176-bit two's complement: a sum that leaves the range wraps modulo 2^176 (R71; DESIGN CHOICE: assumption log, 108). -/
def wrap176 (t : Int) : Int := (BitVec.ofInt 176 t).toInt

/-- p over 2^ebase where that is an integer of the window (R68). -/
def windowUnits (p : Dy) (ebase : Int) : Option Int :=
  let u := if ebase ≤ p.exp then some (p.num * (pow2 (p.exp - ebase) : Int))
    else if p.num % (pow2 (ebase - p.exp) : Int) = 0 then some (p.num / (pow2 (ebase - p.exp) : Int)) else none
  u.bind fun u => if u.natAbs ≤ 2 ^ 127 - 1 then some u else none

/-- One exact product added (R68): the accumulator, EXP_RANGE, NAN. -/
def exAdd (ebase : Int) (a : ExAcc × Bool × Bool) (p : Option Dy) : ExAcc × Bool × Bool :=
  let full := decide (a.1.n = 2 ^ 48 - 1)
  let x := if full then { a.1 with ovf := true } else { a.1 with n := a.1.n + 1 }
  let er := a.2.1 || full
  match p with
  | none => ({ x with nan := true }, er, true)
  | some d =>
    if d.num = 0 then (x, er, a.2.2)
    else match windowUnits d ebase with
      | some u => ({ x with t := wrap176 (x.t + u) }, er, a.2.2)
      | none => (if 0 < d.num then { x with pos := true } else { x with neg := true }, true, a.2.2)

/-- The largest window value. -/
def windowMax : Int := 2 ^ 127 - 1

/-- The window value at a drain (R69): none for NaN; and SAT. -/
def windowValue (a : ExAcc) : Option Int × Bool :=
  if a.nan then (none, false)
  else if a.pos ∨ a.ovf then (some windowMax, false)
  else if a.neg then (some (-windowMax), false)
  else if windowMax < a.t then (some windowMax, true)
  else if a.t < -windowMax then (some (-windowMax), true)
  else (some a.t, false)

/-- The image of an exact accumulator (Table 3.5). -/
def imageBytes (m : ExImg) : List Byte :=
  leBytes 22 (BitVec.ofInt 176 m.acc.t).toNat ++ leBytes 2 (BitVec.ofInt 16 m.ebase).toNat ++
    leBytes 1 (b2n m.acc.pos + 2 * b2n m.acc.neg + 4 * b2n m.acc.nan + 8 * b2n m.acc.ovf) ++ leBytes 6 m.acc.n ++ [0]

/-- The image that 32 bytes spell; none with a reserved bit set or EBASE out of range (R89). -/
def imageOf (b : List Byte) : Option ExImg :=
  let st := fld b 24 1
  let e := (BitVec.ofNat 16 (fld b 22 2)).toInt
  if 16 ≤ st ∨ fld b 31 1 ≠ 0 ∨ e < -512 ∨ 511 < e then none
  else some ⟨⟨(BitVec.ofNat 176 (fld b 0 22)).toInt, fld b 25 6, bit st 0, bit st 1, bit st 2, bit st 3⟩, e⟩

/-- Two images combined, a from the lower sender index (R71): the image, and EXP_RANGE. -/
def imageAdd (a b : ExImg) : ExImg × Bool :=
  let sum := a.acc.n + b.acc.n + 1
  let big := decide (2 ^ 48 ≤ sum)
  let n := if big then 2 ^ 48 - 1 else sum
  let st : ExAcc :=
    { t := a.acc.t, n := n, pos := a.acc.pos || b.acc.pos, neg := a.acc.neg || b.acc.neg,
      nan := a.acc.nan || b.acc.nan, ovf := a.acc.ovf || b.acc.ovf || big }
  if a.ebase = b.ebase then (⟨{ st with t := wrap176 (a.acc.t + b.acc.t) }, a.ebase⟩, big)
  else if b.acc.t = 0 then (⟨st, a.ebase⟩, big)
  else if 0 < b.acc.t then (⟨{ st with pos := true }, a.ebase⟩, true)
  else (⟨{ st with neg := true }, a.ebase⟩, true)

/-! ### Fast mode (R72, R73) -/

/-- The largest finite value of each sign. -/
def isLargest (w : Word) (neg : Bool) : Bool :=
  w == (if neg then 0xFF7FFFFF else 0x7F7FFFFF)

/-- The fast addition (R73). -/
def fastAdd (a b : Word) : Conv :=
  match (fv32 a).dy, (fv32 b).dy with
  | some x, some y =>
    if (isLargest a false && isLargest b true) || (isLargest a true && isLargest b false) then ⟨fp32.cnan, false, true⟩
    else fp32Of (dyAdd x y)
  | _, _ => ⟨fp32.cnan, false, true⟩

/-- The block sum of exact products (R72). -/
def blockSum (ps : List (Option Dy)) : BlockSum :=
  if ps.any Option.isNone then ⟨0x7FC00000, false, true⟩
  else
    let r := fp32Of (dySum (ps.filterMap id))
    ⟨BitVec.ofNat 32 r.bits, r.sat, false⟩

/-! ### Weight-stream coding (R76, R146) -/

/-- The packed blocks of a coded stream: `left` bytes may be read, the rest decode as zero. -/
def decodeBlocks : Nat → Nat → Nat → Nat → List Byte → List (List Byte)
  | 0, _, _, _, _ => []
  | n + 1, k, mask, left, bs =>
    let fresh := decide (k = 0)
    let mask := if fresh then (if left = 0 then 0 else fld bs 0 1) else mask
    let bs := if fresh then bs.drop 1 else bs
    let left := if fresh then left - 1 else left
    let size := if bit mask k then 33 else 1
    padTo 33 ((bs.take size).take left) :: decodeBlocks n ((k + 1) % 8) mask (left - size) (bs.drop size)

/-- BLOCKS packed blocks from a stored item: coded length, then groups (R146). -/
def decodeStream (blocks : Nat) (item : List Byte) : List (List Byte) :=
  let l := min (fld item 0 4) (33 * blocks + (blocks + 7) / 8)
  decodeBlocks blocks 0 0 l (item.drop 4)

/-! ### Residues (R101, R103) -/

/-- The modulus of the check lane. -/
def chkP : Nat := 2 ^ 61 - 1

/-- ρ(x) (R101). -/
def rho (d : Dy) : Nat :=
  (d.num % (chkP : Int)).toNat * 2 ^ (d.exp % 61).toNat % chkP

end Sys2Proof.Machine
end

