-- ==== Sys2Proof/Machine/Landing.lean ====
section
/-! DEFINITION. Landing: the forms in which an item lands (R146), the fill port and its beats (R134, R135, R145), the puts that end at
it (R147, R212, R252), and FILL_BEAT. -/

namespace Sys2Proof.Machine

/-! ### Landing forms (R146) -/

/-- The packed blocks of an item as stored. -/
def packedBlocks (d : Desc) (item : List Byte) : List (List Byte) :=
  (List.range d.blocks).map fun i => padTo 33 (slice item (33 * i) 33)

/-- Bytes cut into beats of 256 at an offset of a slot. -/
def plainBeats (off : Nat) (bs : List Byte) : List (List (Nat × List Byte)) :=
  (chunksOf 256 (beatsOf bs.length) bs).mapIdx fun i b => [(off + 256 * i, b)]

/-- The split layout: mantissa beats, then scale beats with one byte in four (R146, form 1; the scale byte of a block is its first,
R59). -/
def splitBeats (d : Desc) (blocks : List (List Byte)) : List (List (Nat × List Byte)) :=
  let area := (32 * d.blocks + 511) / 512 * 512
  let scales := blocks.mapIdx fun i b => (area + 4 * i + d.spos, b.take 1)
  plainBeats 0 (blocks.flatMap fun b => b.drop 1) ++ chunksOf 64 (beatsOf (4 * d.blocks)) scales

/-- What each beat of an item writes, at byte offsets of the slot. -/
def landBeats (d : Desc) (item : List Byte) : List (List (Nat × List Byte)) :=
  if d.kind = 2 then [[(0, padTo 64 item)]]
  else match d.land with
    | 0 => plainBeats 0 (padTo (d.slotsz * 256) item)
    | 1 => splitBeats d (packedBlocks d item)
    | 2 => plainBeats 0 (decodeStream d.blocks item).flatten
    | _ => splitBeats d (decodeStream d.blocks item)

/-- The bytes an item has in memory (R146): as its form needs them (DEDUCED: assumption log, 14). -/
def itemBytes (d : Desc) : Nat :=
  match d.land with
  | 0 => d.slotsz * 256
  | 1 => 33 * d.blocks
  | _ => 4 + 33 * d.blocks + (d.blocks + 7) / 8

/-- The bytes a form covers in its slot. -/
def formBytes (d : Desc) : Nat :=
  match d.land with
  | 0 => d.slotsz * 256
  | 2 => 33 * d.blocks
  | _ => (32 * d.blocks + 511) / 512 * 512 + 4 * d.blocks

/-- The beats of an item queued at a core's fill port: the transfer arrives at `arrive` and takes the port beat after beat, so that a later
one starts at the first free fill cycle (R145, Table 6.8). -/
def queueItem (d : Desc) (ring slot seq order arrive : Nat) (item : List Byte) (c : Core) : Core :=
  let bs := landBeats d item
  let lo := slotUnit d slot * 32
  { c with fill := c.fill ++ bs.mapIdx fun i w =>
      ⟨arrive, order, .item ring slot seq (i + 1 == bs.length), w.map fun p => (lo + p.1, p.2)⟩ }

/-! ### The fill port -/

/-- A fill write: bytes at a byte address relative to TASK_BASE, but for the units named (R144). -/
def fillWrite (skip : List Nat) (c : Core) (w : Nat × List Byte) : Core :=
  if w.2.zipIdx.any fun b => skip.contains ((w.1 + b.2) / 32) then
    { c with spad := w.2.zipIdx.foldl (fun m b =>
        if skip.contains ((w.1 + b.2) / 32) then m else memWrite m (c.base * 4096 + w.1 + b.2) [b.1]) c.spad }
  else { c with spad := memWrite c.spad (c.base * 4096 + w.1) w.2 }

/-- One beat of a ring item written (R145): its last beat gives the slot its landing cycle. A beat whose slot is no longer that
transfer's is dropped. -/
def fillItem (now ring slot seq : Nat) (last : Bool) (ws : List (Nat × List Byte)) (c : Core) : Core :=
  let x := slotOf (ringOf c ring) slot
  if x.st = .free ∨ x.seq ≠ seq then c
  else
    let c := ws.foldl (fillWrite x.written) c
    updRing ring (updSlot slot fun x => { x with ver := x.ver + 1, landed := if last then some now else x.landed }) c

/-- A task runs at a core in the sense of R148: running, holding, or stopped by a revoke; done until it ends (R38). -/
def taskRuns (c : Core) : Bool :=
  coreLive c

/-- One home of a put has accepted its last byte (R147, R210). -/
def putAccepted (now ring id : Nat) (c : Core) : Core :=
  updRing ring (fun g => { g with puts := g.puts.map fun p =>
    if p.id = id ∧ p.doneAt = none then { p with need := p.need - 1, doneAt := if p.need ≤ 1 then some now else none } else p }) c

/-- How a put meets its target (R212, R252): written, discarded for want of a running task, or refused with a halt of the issuer. -/
inductive PutFate where
  | written | discarded | halted (reason : Nat)
deriving DecidableEq, Repr

/-- The fate of a put of `len` bytes at a byte address of a target's rows. -/
def putFate (c : Core) (lo len : Nat) : PutFate :=
  if !taskRuns c then .discarded
  else if c.bound * 4096 < lo + len then .halted 0x2A
  else if touchesHeld c 0 (lo / 32) ((len + 31) / 32) then .halted 0x2C
  else .written

/-- A put's beat at a target in its issuer's channel. -/
def fillPut (s : State) (ch target : Nat) (r : PutRef) (ws : List (Nat × List Byte)) : State :=
  let k := getCh s ch
  let c := coreOf k target
  let s := match putFate c r.lo r.len with
    | .written => updCh s ch fun k => updCoreOf k target fun c => ws.foldl (fillWrite []) c
    | .discarded => if r.last then chEvent s ch 0x0043 c.job (leBytes 1 (target / 16) ++ leBytes 1 (target % 16)) else s
    | .halted e => if r.last then haltOrigin s (mkCore ch r.core) r.org e else s
  if r.last then updCh s ch fun k => updCoreOf k r.core (putAccepted k.cycles r.ring r.id) else s

/-- A beat of a WRITE packet at the fill port of its target (R147, R212): its last beat is answered, WRDONE or FAULT. -/
def fillPkt (s : State) (ch target : Nat) (r : PktRef) (ws : List (Nat × List Byte)) : State :=
  let c := coreOf (getCh s ch) target
  let reply := fun (s : State) kind a => sendPkt s ch kind r.dev r.ch 0xFFFF (r.tag * 2 ^ 48 + a) []
  match putFate c r.lo r.len with
  | .written =>
    let s := updCh s ch fun k => updCoreOf k target fun c => ws.foldl (fillWrite []) c
    if r.last then reply s 4 0 else s
  | .discarded => if r.last then reply (chEvent s ch 0x0043 c.job (leBytes 1 (target / 16) ++ leBytes 1 (target % 16))) 4 0 else s
  | .halted e => if r.last then reply s 5 (e * 2 ^ 40) else s

/-- Whether a beat may be written in the cycle to come: received messages count schedule cycles (R162). -/
def beatReady (k : Channel) (b : Beat) : Bool :=
  match b.kind with
  | .recv => decide (b.arrive ≤ schedNow k)
  | _ => decide (b.arrive ≤ k.cycles)

/-- The earlier of two beats (R145): received messages first, then by arrival, then by issue order. -/
def beatFirst (a : Option Beat) (b : Beat) : Option Beat :=
  match a with
  | none => some b
  | some a =>
    let rank : Beat → Nat := fun x => if x.kind = .recv then 0 else 1
    if rank b < rank a ∨ (rank b = rank a ∧ (b.arrive < a.arrive ∨ (b.arrive = a.arrive ∧ b.order < a.order))) then some b else some a

/-- The beat that takes a core's fill port. -/
def nextBeat (k : Channel) (c : Core) : Option Beat :=
  (c.fill.filter (beatReady k)).foldl beatFirst none

/-- FILL_BEAT (R145): one beat is written through the core's fill port; at a fenced position what lands is discarded (R272). -/
def execFillBeat (c : CoreId) (s : State) : Host.Outcome State Fault Refusal :=
  let ch := chOf c
  let n := inCh c
  let k := getCh s ch
  match nextBeat k (coreOf k n) with
  | none => .next s
  | some b =>
    let s := updCore s c fun x => { x with fill := x.fill.erase b }
    let open_ := decide ((coreOf k n).grip = .free)
    let s := if open_ then fillHazards s c (match b.kind with
      | .item ring _ _ _ => ring
      | _ => 0) b.writes else s
    match b.kind with
    | .item ring slot seq last => .next (if open_ then updCore s c (fillItem k.cycles ring slot seq last b.writes) else s)
    | .recv => .next (if open_ then updCore s c fun x => b.writes.foldl (fillWrite []) x else s)
    | .put r => .next (fillPut s ch n r b.writes)
    | .pkt r => .next (fillPkt s ch n r b.writes)

end Sys2Proof.Machine
end

