-- ==== Sys2Proof/Machine/Fabric.lean ====
section
/-! DEFINITION. Fabric: the Fabric Address Map (R203-R210, R213, R216), reads and writes of GDDR7, CXL and scratchpad homes (R195,
R201, R212), the packets that carry them (R312, R315), and the memories' own events (R193, R199, R202). -/

namespace Sys2Proof.Machine

/-! ### Map entries and regions (Tables 9.5, 9.6) -/

/-- A map entry. -/
def famGet (k : Channel) (n : Nat) : Nat :=
  (tabGet k.famMap 0 n).toNat

/-- The page size of a PSZ. -/
def pageSize (psz : Nat) : Nat :=
  if psz = 1 then 2097152 else 65536

/-- The first byte past a region's virtual range less its first. -/
def regionBytes (r : Region) : Nat :=
  r.npages * pageSize r.psz

/-- The region in which a virtual address of a job lies (R207). -/
def regionAt (k : Channel) (job a : Nat) : Option Region :=
  (k.regions.find? fun e => e.2.job == job && decide (e.2.base * 65536 ≤ a ∧ a < e.2.base * 65536 + regionBytes e.2)).map (·.2)

/-- The region spelled by 128 bits (Table 9.5). -/
def regionOf (v : Nat) : Region :=
  { job := bits v 111 16, psz := bits v 110 1, base := bits v 70 40, npages := bits v 50 20, first := bits v 31 19,
    rfirst := bits v 12 19, rv := bit v 11 }

/-- The 128 bits of a region. -/
def regionRaw (r : Region) : Nat :=
  2 ^ 127 + r.job * 2 ^ 111 + r.psz * 2 ^ 110 + r.base * 2 ^ 70 + r.npages * 2 ^ 50 + r.first * 2 ^ 31 + r.rfirst * 2 ^ 12 + b2n r.rv * 2 ^ 11

/-- The capacity under the HDM decoder of a channel (R202). -/
def cxlBytes (s : State) (ch : Nat) : Nat :=
  cGet s ch 0x201 4

/-- An entry in a valid region breaks R206. -/
def entryRefused (s : State) (psz : Nat) (rv : Bool) (e : Nat) : Bool :=
  let tier := bits e 47 2
  let page := bits e 23 24
  let own := decide (bits e 51 12 = ownDev s)
  decide (tier = 3) ||
    (decide (tier = 0) && (bit e 22 || bit e 20 || bit e 18 || bit e 19 || decide (psz = 1))) ||
    (bit e 20 && (bit e 21 || decide (psz = 1))) ||
    decide (256 < bits e 9 9 ∨ bits e 0 9 ≠ bits e 9 9) || (bit e 19 && !rv) ||
    (own && decide (tier = 1) && decide ((if psz = 1 then 12160 else 389120) ≤ page)) ||
    (own && decide (tier = 2) && decide (cxlBytes s (bits e 49 2) < (page + 1) * pageSize psz))

/-- An entry number lies in a region's range or replica range. -/
def inRegion (r : Region) (n : Nat) : Bool :=
  decide (r.first ≤ n ∧ n < r.first + r.npages) || (r.rv && decide (r.rfirst ≤ n ∧ n < r.rfirst + r.npages))

/-- An entry write is refused (R206). -/
def entryWriteRefused (s : State) (ch n e : Nat) : Bool :=
  (getCh s ch).regions.any fun r => inRegion r.2 n && entryRefused s r.2.psz r.2.rv e

/-- An entry range holds an entry that is not listed, which is zero and names tier 0. -/
def zeroIn (k : Channel) (first n : Nat) : Bool :=
  decide ((k.famMap.filter fun e => decide (first ≤ e.1 ∧ e.1 < first + n)).length < n)

/-- A region write is refused (R204; Table 9.5, NPAGES). -/
def regionRefused (s : State) (ch n : Nat) (r : Region) : Bool :=
  let k := getCh s ch
  let others := (k.regions.filter fun e => e.1 != n).map (·.2)
  let lo := r.base * 65536
  decide (r.npages = 0 ∨ 524288 < r.npages) || (decide (r.psz = 1) && decide (r.base % 32 ≠ 0)) ||
    decide (524288 < r.first + r.npages) || (r.rv && decide (524288 < r.rfirst + r.npages)) || decide (2 ^ 56 < lo + regionBytes r) ||
    (others.any fun o => o.job == r.job && meets lo (regionBytes r) (o.base * 65536) (regionBytes o)) ||
    (r.rv && meets r.first r.npages r.rfirst r.npages) ||
    (others.any fun o => meets r.first r.npages o.first o.npages || (o.rv && meets r.first r.npages o.rfirst o.npages) ||
      (r.rv && (meets r.rfirst r.npages o.first o.npages || (o.rv && meets r.rfirst r.npages o.rfirst o.npages)))) ||
    (k.famMap.any fun e => inRegion r e.1 && entryRefused s r.psz r.rv e.2.toNat) ||
    (entryRefused s r.psz r.rv 0 && (zeroIn k r.first r.npages || (r.rv && zeroIn k r.rfirst r.npages)))

/-! ### Writing the map (R213) -/

/-- A running job. -/
def jobRunning (s : State) (j : Nat) : Bool :=
  decide (j < 64) && decide ((getJob s j).st = .running)

/-- The running job whose region a region write concerns. -/
def regionUser (s : State) (ch n : Nat) (r : Option Region) : Option Nat :=
  (((tabFind (getCh s ch).regions n).toList ++ r.toList).map (·.job)).find? (jobRunning s)

/-- The running job whose region holds an entry. -/
def entryUser (s : State) (ch n : Nat) : Option Nat :=
  (((getCh s ch).regions.filter fun r => inRegion r.2 n).map (·.2.job)).find? (jobRunning s)

/-- A region or entry written. -/
def famApply (s : State) (ch : Nat) (w : Staged) : State :=
  updCh s ch fun k => match w with
    | .region n raw => if bit raw.toNat 127 then { k with regions := tabSet k.regions n (regionOf raw.toNat) }
                       else { k with regions := tabDel k.regions n }
    | .entry n raw => if raw = 0 then { k with famMap := tabDel k.famMap n } else { k with famMap := tabSet k.famMap n raw }

/-- Staging has room for one more write (R213). -/
def stagingRoom (k : Channel) (w : Staged) : Bool :=
  let isEntry : Staged → Bool := fun w => match w with
    | .entry _ _ => true
    | .region _ _ => false
  let n := (k.staged.filter fun e => isEntry e.2 == isEntry w).length
  decide (n < (if isEntry w then 1024 else 16))

/-- An accepted write staged for a running job, or applied (R213); false where staging is full. -/
def famTake (s : State) (ch : Nat) (user : Option Nat) (w : Staged) : State × Bool :=
  match user with
  | none => (famApply s ch w, true)
  | some j => if stagingRoom (getCh s ch) w then (updCh s ch fun k => { k with staged := k.staged ++ [(j, w)] }, true) else (s, false)

/-- A refused write counted. -/
def famRefuse (s : State) (ch : Nat) : State :=
  dSat s (cIdx ch 0x300) 4 1

/-- A write breaks R204 or R206 as the map stands. -/
def famBad (s : State) (ch : Nat) (w : Staged) : Bool :=
  match w with
  | .region n raw => bit raw.toNat 127 && regionRefused s ch n (regionOf raw.toNat)
  | .entry n raw => entryWriteRefused s ch n raw.toNat

/-- The map as a write will meet it: as it stands, or, for a write to be staged, with every staged write applied (R213). -/
def famView (s : State) (ch : Nat) (user : Option Nat) : State :=
  if user.isNone then s else ((getCh s ch).staged.map (·.2)).foldl (fun s w => famApply s ch w) s

/-- A staged write applied; one that meanwhile breaks R204 or R206 is refused and counted (DESIGN CHOICE: assumption log, 100). -/
def famSettle (ch : Nat) (s : State) (w : Staged) : State :=
  if famBad s ch w then famRefuse s ch else famApply s ch w

/-- The staged writes of a job applied (R213). -/
def applyStaged (s : State) (ch j : Nat) : State :=
  let k := getCh s ch
  ((k.staged.filter fun e => e.1 == j).map (·.2)).foldl (famSettle ch)
    (updCh s ch fun k => { k with staged := k.staged.filter fun e => e.1 != j })

/-- FAM_REGION_WRITE (R204, R213): region n, numbered from 0. -/
def execFamRegionWrite (q : Req) (ch : ChId) (n : BitVec 6) (bytes : List Byte) (s : State) : Host.Outcome State Fault Refusal :=
  let c := ch.toNat
  .next (onWrite s q (cIdx c 0x301) (n.toNat + 1) fun s =>
    if bytes.length ≠ 16 then answer s q 0x04 []
    else
      let v := leNat bytes
      let user := regionUser s c n.toNat (if bit v 127 then some (regionOf v) else none)
      let w : Staged := .region n.toNat (BitVec.ofNat 128 v)
      if famBad (famView s c user) c w then answer (famRefuse s c) q 0x09 []
      else match famTake s c user w with
        | (s, true) => answer s q 0x00 []
        | (s, false) => answer (famRefuse s c) q 0x09 [])

/-- Window entries taken one by one, up to the first refused (R213, R216). -/
def famWindow (ch : Nat) : Nat → List (List Byte) → State → State × Bool
  | _, [], s => (s, true)
  | n, b :: r, s =>
    let user := entryUser s ch n
    let w : Staged := .entry n (BitVec.ofNat 64 (leNat b))
    if 524288 ≤ n ∨ famBad (famView s ch user) ch w then (famRefuse s ch, false)
    else match famTake s ch user w with
      | (s, true) => famWindow ch (n + 1) r s
      | (s, false) => (famRefuse s ch, false)

/-- FAM_WIN_DATA (R206, R213, R216, R359). -/
def execFamWinData (q : Req) (ch : ChId) (bytes : List Byte) (s : State) : Host.Outcome State Fault Refusal :=
  let c := ch.toNat
  .next (onWrite s q (cIdx c 0x302) 3 fun s =>
    if bytes.length % 8 ≠ 0 ∨ 4096 < bytes.length then answer s q 0x04 []
    else
      let r := famWindow c (cGet s c 0x302 1) (chunksOf 8 512 bytes) s
      answer r.1 q (if r.2 then 0x00 else 0x09) [])

/-! ### Translation (R207) -/

/-- What a translation gives: the homes, the replica kept in reserve, the durable right, the entry, the homes left stale (R210). -/
structure Trans where
  dests : List Target
  alt   : Option Target
  dur   : Bool
  entry : Nat
  top   : Option Nat
  stale : List Target
deriving DecidableEq, Repr

/-- The home an entry names for an offset of its page. -/
def entryHome (psz e off : Nat) : Target :=
  ⟨bits e 51 12, bits e 49 2, bits e 47 2, bits e 23 24 * pageSize psz + off⟩

/-- The route state shows a home reachable (R210, R322). -/
def homeReach (s : State) (ch : Nat) (t : Target) : Bool :=
  (decide (t.dev = ownDev s) && decide (t.ch = ch)) || (routePort (getCh s ch) t.dev t.ch).isSome

/-- The homes of an access to a page with entry e and replica f (R210). -/
def chooseHomes (s : State) (ch : Nat) (write : Bool) (e f : Target) : List Target × Option Target × List Target :=
  let re := homeReach s ch e
  let rf := homeReach s ch f
  if write then
    if re ∧ rf then ([e, f], none, []) else if re then ([e], none, [f]) else if rf then ([f], none, [e]) else ([e, f], none, [])
  else if re then ([e], some f, []) else ([f], none, [])

/-- R207: the halt reason, or what the translation gives. `hub` marks an access of the control node (R343). -/
def translate (s : State) (ch job a b : Nat) (write hub : Bool) : Except Nat Trans :=
  let k := getCh s ch
  match regionAt k job a with
  | none => .error 0x29
  | some r =>
    let size := pageSize r.psz
    let n := (a - r.base * 65536) / size
    let off := (a - r.base * 65536) % size
    let e := famGet k (r.first + n)
    if size < off + b then .error 0x2A
    else if !bit e 63 then .error 0x29
    else if write && bit e 20 && hub then .error 0x2A
    else if write && bit e 20 && decide (off / 256 < bits e 9 9) then .error 0x2B
    else if write && !bit e 20 && !bit e 21 then .error 0x2A
    else if !write && !bit e 22 then .error 0x2A
    else
      let home := entryHome r.psz e off
      let (dests, alt, stale) := if bit e 19 then chooseHomes s ch write home (entryHome r.psz (famGet k (r.rfirst + n)) off)
                                 else ([home], none, [])
      .ok { dests := dests, alt := alt, dur := bit e 18, entry := r.first + n, stale := stale
            top := if write && bit e 20 then some (max (bits e 0 9) ((off + b) / 256)) else none }

/-- A map entry's TOP and MARK. -/
def setTop (e top : Nat) : Nat :=
  e - bits e 0 9 + top

/-- A map entry's MARK raised to its TOP (R208). -/
def setMark (e : Nat) : Nat :=
  e - bits e 9 9 * 512 + bits e 0 9 * 512

/-- The page of a home, in pages of its region; here of 64 KiB. -/
def pageOf (t : Target) : Nat :=
  t.addr / 65536

/-- The event of a write that left a copy stale (R210). -/
def staleEvent (s : State) (ch job : Nat) (t : Target) : State :=
  chEvent s ch 0x0041 job (leBytes 2 t.dev ++ leBytes 1 t.ch ++ leBytes 1 t.tier ++ leBytes 8 (pageOf t))

/-- The effects of a translated write: TOP of a step-append page (R208), noted for the step, and stale copies reported (R210). -/
def noteWrite (s : State) (ch job : Nat) (t : Trans) : State :=
  let s := match t.top with
    | some top =>
      let s := updCh s ch fun k => { k with famMap := tabSet k.famMap t.entry (BitVec.ofNat 64 (setTop (famGet k t.entry) top)) }
      updJobCh s ch job fun v => { v with appends := if v.appends.contains t.entry then v.appends else v.appends ++ [t.entry] }
    | none => s
  t.stale.foldl (fun s x => staleEvent s ch job x) s

/-! ### Homes (R195, R201, R212) -/

/-- A range of a tier exists at a home in its own module (R192, R206, R212). -/
def rangeThere (s : State) (ch tier addr n : Nat) : Bool :=
  match tier with
  | 1 => decide (addr + n ≤ 389120 * 65536)
  | 2 => decide (addr + n ≤ cxlBytes s ch)
  | _ => false

/-- The tier answers: GDDR7 always, CXL while its link is up (R201, R390). -/
def tierUp (s : State) (ch tier : Nat) : Bool :=
  if tier = 2 then decide (cGet s ch 0x201 1 = 2 ∨ cGet s ch 0x201 1 = 3) else true

/-- The device of a channel's GDDR7 in which a byte lies (R192). -/
def gddrDevice (a : Nat) : Nat :=
  a / 256 % 8

/-- Bytes of a tier. -/
def tierRead (k : Channel) (tier addr n : Nat) : List Byte :=
  if tier = 2 then memRead k.cxl addr n else memRead k.gddr addr n

/-- Bytes of a tier written. -/
def tierWrite (tier addr : Nat) (bs : List Byte) (k : Channel) : Channel :=
  if tier = 2 then { k with cxl := memWrite k.cxl addr bs } else { k with gddr := memWrite k.gddr addr bs }

/-- The event of a page whose write a CXL link that is down did not take (R201). -/
def writeLost (s : State) (ch page : Nat) : State :=
  chEvent s ch 0x0042 0xFFFF (zeros 4 ++ leBytes 8 page)

/-- A write at a home: stored, the bursts of GDDR7 that a retry corrected counted (R195); a CXL link that is down discards it, and an event
names the page (R201). -/
def tierPut (s : State) (ch tier addr : Nat) (bs : List Byte) : State :=
  if !tierUp s ch tier then writeLost s ch (addr / 65536)
  else
    let s := if tier = 1 then dSat s (cIdx ch 0x200) 3 (Config.writeRetries ch s.hub.time) else s
    updCh s ch (tierWrite tier addr bs)

/-- What a read meets in the device, counted (R195, R201): a corrected burst, an uncorrectable read, a poisoned one. -/
def readMeets (s : State) (ch tier : Nat) (ecc : Ecc) : State :=
  match ecc with
  | .clean => s
  | .single => if tier = 1 then dSat s (cIdx ch 0x200) 3 1 else s
  | .double => if tier = 1 then dSat s (cIdx ch 0x200) 4 1 else dSat s (cIdx ch 0x201) 5 1

/-- The event of an uncorrectable read without a replica (R195). -/
def uncorrectable (s : State) (ch job tier addr : Nat) : State :=
  chEvent s ch 0x0040 job (leBytes 1 tier ++ zeros 3 ++ leBytes 8 (addr / 65536))

/-! ### Requests to other homes (R312, R315) -/

/-- SLOT of a packet (R315): a function of the schedule alone. -/
def slotNumber (s : State) (ch : Nat) (core : Option Nat) : Nat :=
  match core with
  | none => 0xFFFF
  | some n =>
    let k := getCh s ch
    let c := coreOf k n
    let ticks := max 1 (cGet s ch 0x400 1)
    ((jobOf k c.job).ftLaunch * k.mhz + (c.sched - c.launchAt) * 1000) / (k.mhz * ticks) % 65535

/-- The packets of a request: pieces of at most 4,096 bytes in ascending address (R312). -/
def sendParts (s : State) (ch : Nat) (r : Request) (data : List Byte) : State :=
  let slot := slotNumber s ch r.core
  (List.range r.parts).foldl (fun s i =>
    let n := min 4096 (r.len - 4096 * i)
    let arg := (r.tag + i) % 65536 * 2 ^ 48 + r.home.tier * 2 ^ 46 + (r.home.addr + 4096 * i)
    let body := if r.write then slice data (4096 * i) n else leBytes 4 n ++ zeros 4
    sendPkt s ch (if r.write then 3 else 1) r.home.dev r.home.ch slot arg body) s

/-- A request made: it takes the next TAGs and its packets are sent. -/
def makeRequest (s : State) (ch : Nat) (r : Request) (data : List Byte) : State :=
  let k := getCh s ch
  let parts := (r.len + 4095) / 4096
  let r := { r with tag := k.nextTag, parts := parts, asked := if r.core.isNone then s.hub.time else k.cycles, got := [] }
  sendParts (updCh s ch fun k => { k with reqs := k.reqs ++ [r], nextTag := (k.nextTag + parts) % 65536 }) ch r data

/-- The request a TAG belongs to, and the part it is. -/
def reqOf (k : Channel) (tag : Nat) : Option (Request × Nat) :=
  k.reqs.findSome? fun r =>
    let i := (tag + 65536 - r.tag) % 65536
    if i < r.parts then some (r, i) else none

/-- A request taken off the list. -/
def dropReq (s : State) (ch : Nat) (r : Request) : State :=
  updCh s ch fun k => { k with reqs := k.reqs.erase r }

/-- The homes of a put that lie in the issuing channel. -/
def isOwn (s : State) (ch : Nat) (t : Target) : Bool :=
  decide (t.dev = ownDev s) && decide (t.ch = ch)

/-- The nominal figure of a home (Table 9.2). -/
def nominal (s : State) (ch : Nat) (t : Target) : Nat :=
  let own := t.dev = ownDev s
  match t.tier with
  | 0 => if own ∧ t.ch = ch then 40 else if own then 140 else 800
  | 1 => if own ∧ t.ch = ch then 900 else if own then 1100 else 2400
  | _ => if own ∧ t.ch = ch then 1600 else if own then 1800 else 3100

/-- The cores whose rings take an item of a core's ring (R149): the core, and the members of a multicast. -/
def itemCores (core : Nat) (d : Desc) : List Nat :=
  if d.kind ≠ 3 then [core]
  else if d.scope = 1 then List.range 128
  else ((List.range 16).filter fun i => d.mask.testBit i).map fun i => core / 16 * 16 + i

/-- An item's bytes sent to the fill ports of the cores whose slot takes it, from the channel cycle `arrive` on (R145, R149). -/
def deliverItem (s : State) (ch : Nat) (takers : List Nat) (ring slot seq order arrive : Nat) (item : List Byte) : State :=
  updCh s ch fun k => takers.foldl (fun k n => updCoreOf k n fun c =>
    match (ringOf c ring).desc with
    | some d => queueItem d ring slot seq order arrive item c
    | none => c) k

/-- By how much a transfer of the channel's own memory is late of its nominal figure (R195, R198, R201, R234). -/
def lateness (s : State) (ch tier : Nat) : Nat :=
  Config.late ch tier s.hub.time

/-- The order of a transfer among beats that arrive together (R145): the tick of its issue, then its core. -/
def issueOrder (s : State) (c : CoreId) : Nat :=
  s.hub.time * 512 + c.toNat

/-- A read of the channel's own memory (R145, R195, R201, R212): its item lands at the nominal figure or late of it; false where the home
cannot serve it. -/
def readLocal (s : State) (ch : Nat) (r : Request) (mem : Ecc) : State × Bool :=
  let h := r.home
  if !rangeThere s ch h.tier h.addr r.len then (haltOrigin s (mkCore ch (r.core.getD 0)) r.org 0x2A, true)
  else if !tierUp s ch h.tier then (s, false)
  else
    let s := readMeets s ch h.tier mem
    if mem = .double then (s, false)
    else (deliverItem s ch r.takers r.ring r.slot r.seq r.order ((getCh s ch).cycles + nominal s ch h + lateness s ch h.tier)
      (tierRead (getCh s ch) h.tier h.addr r.len), true)

/-- A core's read asked of its home: at once in the issuing channel, by packets elsewhere. -/
def askHome (s : State) (ch : Nat) (r : Request) (mem : Ecc) : State × Bool :=
  if isOwn s ch r.home then readLocal s ch r mem else (makeRequest s ch r [], true)

/-- The channel whose event names a page that could not be read: the home's in this module, else the reader's. -/
def eventCh (s : State) (ch : Nat) (t : Target) : Nat :=
  if t.dev = ownDev s then t.ch else ch

/-- A read that its home cannot serve (R195, R201, R210): reissued to the replica; without one it never lands, and an event reports it. -/
def readFails (s : State) (ch : Nat) (r : Request) : State :=
  match r.alt with
  | none => uncorrectable s (eventCh s ch r.home) r.job r.home.tier r.home.addr
  | some f => match askHome s ch { r with home := f, alt := none } .clean with
    | (s, true) => s
    | (s, false) => uncorrectable s (eventCh s ch f) r.job f.tier f.addr

/-- A write accepted at one home of a put, no earlier than its nominal completion, the larger figure of two copies (R147, R197). -/
def putDue (s : State) (ch : Nat) (r : Request) : Nat :=
  max (getCh s ch).cycles (r.asked + max (nominal s ch r.home) ((r.alt.map (nominal s ch)).getD 0) - 1)

/-- A read answered whole: the item lands no earlier than its nominal cycle, or the data frame is answered (R145, R343). -/
def readDone (s : State) (ch : Nat) (r : Request) (data : List Byte) : State :=
  match r.core with
  | none => dataAnswer s 4 0x00 r.job r.cseq data
  | some _ =>
    deliverItem s ch r.takers r.ring r.slot r.seq r.order (max (getCh s ch).cycles (r.asked + nominal s ch r.home)) data

/-! ### Input entries (R283) -/

/-- One entry: KIND, an address or object, a length or increment, the payload. -/
def ioEntry (kind addr n : Nat) (payload : List Byte) : List Byte :=
  leBytes 1 kind ++ zeros 7 ++ leBytes 8 addr ++ leBytes 4 n ++ payload

/-- An input entered for a step of a job in a channel. -/
def noteInput (s : State) (ch j step : Nat) (e : List Byte) : State :=
  updJobCh s ch j fun v => { v with inputs := v.inputs ++ [(step, e)] }

/-- The step a data frame acknowledged now belongs to (R283): the first whose release is still to come. -/
def inputStep (k : Channel) (j : Nat) : Nat :=
  nextStep (jobOf k j)

/-- A data frame acknowledged: entered in each channel that holds a home it wrote (R283). -/
def frameTaken (j : Nat) (s : State) (notes : List (Nat × List Byte)) : State :=
  notes.foldl (fun s e => noteInput s e.1 j (inputStep (getCh s e.1) j) e.2) s

/-- A write accepted at its home: one home of a put, or of a data frame (R147, R210, R343). -/
def writeDone (s : State) (ch : Nat) (r : Request) : State :=
  match r.core with
  | none => if r.rel.isSome ∨ (getCh s ch).reqs.any (fun x => x.core.isNone && x.rel.isNone && x.write && x.cseq == r.cseq) then s
    else dataAnswer (frameTaken r.job s r.notes) 2 0x00 r.job r.cseq []
  | some n => updCh s ch fun k => updCoreOf k n (putAccepted (putDue s ch r) r.ring r.seq)

/-- A write of a replicated page one of whose homes has become unreachable before it answered completes on the other alone, and an event
names the stale copy (R210). -/
def staleWrites (s : State) (ch : Nat) : State :=
  let gone := (getCh s ch).reqs.filter fun r => r.write && !homeReach s ch r.home && r.alt.any fun o => homeReach s ch o
  gone.foldl (fun s r => writeDone (staleEvent (dropReq s ch r) ch r.job r.home) ch r) s

/-- A core's read of a replicated page whose home has become unreachable before it answered is served by the replica (R210, R212). -/
def staleReads (s : State) (ch : Nat) : State :=
  let gone := (getCh s ch).reqs.filter fun r => !r.write && r.core.isSome && !homeReach s ch r.home && r.alt.any fun o => homeReach s ch o
  gone.foldl (fun s r => readFails (dropReq s ch r) ch r) s

/-! ### Packets at a channel -/

/-- A request of a source and a TAG, taken once (R322): false for a duplicate. A home remembers half of a source's TAGs (DESIGN CHOICE:
assumption log, 101). -/
def takeTag (s : State) (ch : Nat) (p : Pkt) : State × Bool :=
  let src := 4 * p.sdev.toNat + p.sch.toNat
  let tag := p.arg.toNat / 2 ^ 48
  let seen := (getCh s ch).seenTags
  if seen.contains (src, tag) then (s, false)
  else (updCh s ch fun k => { k with
    seenTags := (src, tag) :: ((seen.filter fun e => e.1 == src).take 32767 ++ seen.filter fun e => e.1 != src) }, true)

/-- The SLOT of a packet that answers another (R315): RDDATA names its request's, kinds 4 to 8 none (DEDUCED: assumption log, 101). -/
def replySlot (kind : Nat) (p : Pkt) : Nat :=
  if kind = 2 then p.slot.toNat else 0xFFFF

/-- RDREQ (R312, R195, R201, R212): the home reads and answers RDDATA, or FAULT. A channel that does not serve gives no answer. -/
def execRdreq (ch : ChId) (ecc : Ecc) (k : Pkt) (s : State) : Host.Outcome State Fault Refusal :=
  let n := ch.toNat
  let arg := k.arg.toNat
  let tag := arg / 2 ^ 48
  let tier := bits arg 46 2
  let addr := bits arg 0 46
  let len := fld k.body 0 4
  let reply := fun (s : State) kind a body => sendPkt s n kind k.sdev.toNat k.sch.toNat (replySlot kind k) (tag * 2 ^ 48 + a) body
  if (getCh s n).st ≠ .serving then .next s
  else match takeTag s n k with
    | (s, false) => .next s
    | (s, true) =>
      if !rangeThere s n tier addr len ∨ len = 0 ∨ 4096 < len then .next (reply s 5 (0x2A * 2 ^ 40) [])
      else if !tierUp s n tier then .next (reply s 5 (0x01 * 2 ^ 40) [])
      else
        let s := readMeets s n tier ecc
        if ecc = .double then .next (reply s 5 (0x01 * 2 ^ 40) [])
        else .next (reply s 2 0 (tierRead (getCh s n) tier addr len))

/-- RDDATA (R312): a part of a read; the whole lands in its slot. -/
def execRddata (ch : ChId) (k : Pkt) (s : State) : Host.Outcome State Fault Refusal :=
  let n := ch.toNat
  match reqOf (getCh s n) (k.arg.toNat / 2 ^ 48) with
  | none => .next s
  | some (r, i) =>
    if r.write ∨ (r.got.any fun g => g.1 == i) then .next s
    else
      let got := tabSet r.got i k.body
      if got.length < r.parts then
        .next (updCh s n fun c => { c with reqs := c.reqs.map fun x => if x = r then { r with got := got } else x })
      else .next (readDone (dropReq s n r) n r (got.flatMap (·.2)))

/-- A WRITE packet at a scratchpad's fill port: its beats queue there, and its last is answered (R147, R212). -/
def queuePkt (s : State) (ch : Nat) (p : Pkt) (core lo : Nat) : State :=
  let bs := plainBeats lo p.body
  updCh s ch fun k => updCoreOf k core fun c => { c with fill := c.fill ++ bs.mapIdx fun i w =>
    ⟨k.cycles, s.hub.time * 512 + 511, .pkt ⟨lo, p.body.length, p.sdev.toNat, p.sch.toNat, p.arg.toNat / 2 ^ 48, i + 1 == bs.length⟩, w⟩ }

/-- PKT_WRITE (R312, R212): the home writes and answers WRDONE, or FAULT; a scratchpad takes it through its fill port (R147). -/
def execPktWrite (ch : ChId) (k : Pkt) (s : State) : Host.Outcome State Fault Refusal :=
  let n := ch.toNat
  let arg := k.arg.toNat
  let tag := arg / 2 ^ 48
  let tier := bits arg 46 2
  let addr := bits arg 0 46
  let len := k.body.length
  let reply := fun (s : State) kind a => sendPkt s n kind k.sdev.toNat k.sch.toNat 0xFFFF (tag * 2 ^ 48 + a) []
  if (getCh s n).st ≠ .serving then .next s
  else match takeTag s n k with
    | (s, false) => .next s
    | (s, true) =>
      if tier = 0 ∧ len ≠ 0 then .next (queuePkt s n k (bits addr 21 7) (addr % 2 ^ 21))
      else if !rangeThere s n tier addr len then .next (reply s 5 (0x2A * 2 ^ 40))
      else .next (reply (tierPut s n tier addr k.body) 4 0)

/-- WRDONE (R312): a part of a write accepted at its home. -/
def execWrdone (ch : ChId) (k : Pkt) (s : State) : Host.Outcome State Fault Refusal :=
  let n := ch.toNat
  match reqOf (getCh s n) (k.arg.toNat / 2 ^ 48) with
  | none => .next s
  | some (r, i) =>
    if !r.write ∨ (r.got.any fun g => g.1 == i) then .next s
    else
      let got := tabSet r.got i []
      if got.length < r.parts then
        .next (updCh s n fun c => { c with reqs := c.reqs.map fun x => if x = r then { r with got := got } else x })
      else .next (writeDone (dropReq s n r) n r)

/-- A data frame's read that its home could not serve (R195, R210): asked of the replica, in this module at once; without one it waits for
its millisecond to pass. -/
def frameFails (s : State) (ch : Nat) (r : Request) : State :=
  match r.alt with
  | none => updCh (uncorrectable s (eventCh s ch r.home) r.job r.home.tier r.home.addr) ch fun c => { c with reqs := c.reqs ++ [r] }
  | some f =>
    if f.dev = ownDev s ∧ rangeThere s f.ch f.tier f.addr r.len ∧ tierUp s f.ch f.tier then
      dataAnswer s 4 0x00 r.job r.cseq (tierRead (getCh s f.ch) f.tier f.addr r.len)
    else makeRequest s ch { r with home := f, alt := none } []

/-- FAULT (R212, R195, R210): a refused page halts the issuer; an uncorrectable read goes to the replica, or never lands. -/
def execFault (ch : ChId) (k : Pkt) (s : State) : Host.Outcome State Fault Refusal :=
  let n := ch.toNat
  let code := bits k.arg.toNat 40 8
  match reqOf (getCh s n) (k.arg.toNat / 2 ^ 48) with
  | none => .next s
  | some (r, _) =>
    let s := dropReq s n r
    if code = 0x01 ∧ !r.write then .next (if r.core.isNone then frameFails s n r else readFails s n r)
    else match r.core with
      | none => .next (if r.rel.isSome then haltOrigin s (mkCore n (r.takers.headD 0)) r.org code
                       else dataAnswer s (if r.write then 2 else 4) 0x2A r.job r.cseq [])
      | some c =>
        let s := haltOrigin s (mkCore n c) r.org code
        .next (if r.write then writeDone s n r else s)

/-! ### The memories -/

/-- GDDR7_REFRESH (R193): one refresh, in every state in which the devices hold contents; programs see nothing of it. -/
def execGddr7Refresh (ch : ChId) (s : State) : Host.Outcome State Fault Refusal :=
  if (getCh s ch.toNat).st = .resetting ∨ (getCh s ch.toNat).selfRef then .next s
  else .next (updCh s ch.toNat fun k => { k with refreshes := k.refreshes + 1 })

/-- SELF_REFRESH_ENTRY (R193): Isolated or Reloading, with no journal access pending for 10 µs. -/
def execSelfRefreshEntry (ch : ChId) (s : State) : Host.Outcome State Fault Refusal :=
  let k := getCh s ch.toNat
  if (k.st = .isolated ∨ k.st = .reloading) ∧ k.refIdle + 10000 ≤ s.hub.time then
    .next (updCh s ch.toNat fun k => { k with selfRef := true })
  else .next s

/-- The CXL pages of writes in flight, each once (R201). -/
def cxlInFlight (k : Channel) (dev ch : Nat) : List Nat :=
  ((k.cores.flatMap fun c => c.2.putFly.flatMap fun p => (p.dests.filter fun t =>
    decide (t.dev = dev) && decide (t.ch = ch) && decide (t.tier = 2)).map pageOf)).dedup

/-- A core's puts on their way to one CXL home discarded there: the write path still drains (R201). -/
def dropCxl (now : Nat) (isCxl : Target → Bool) (c : Core) : Core :=
  let gone := c.putFly.filter fun p => !p.dur && p.dests.any isCxl
  let c := { c with putFly := c.putFly.map fun p => if p.dur then p else { p with dests := p.dests.filter fun t => !isCxl t } }
  gone.foldl (fun c p => putAccepted now p.ring p.id c) c

/-- The reads of a channel's own CXL memory still under way for a core's rings, as requests (R201): those whose item has not landed. -/
def cxlReads (s : State) (ch n : Nat) : List Request :=
  let k := getCh s ch
  let c := coreOf k n
  c.rings.flatMap fun g => match g.2.desc with
    | none => []
    | some d =>
      if d.kind ≠ 0 ∧ d.kind ≠ 3 then []
      else g.2.slots.filterMap fun x =>
        if x.2.st = .free ∨ x.2.landed.isSome then none
        else match translate s ch c.job x.2.item (itemBytes d) false false with
          | .error _ => none
          | .ok t => (t.dests.head?.filter fun h => isOwn s ch h && h.tier == 2).map fun h =>
            { tag := 0, core := some n, takers := itemCores n d, ring := g.1, slot := x.1, seq := x.2.seq
              order := issueOrder s (mkCore ch n), write := false,
              cseq := 0, rel := none, job := c.job, asked := 0, len := itemBytes d, parts := 0, got := [], home := h, alt := t.alt
              notes := [], org := ⟨c.pc, c.sched, 5, 0, x.2.step⟩ }

/-- Beats of a read that will not come taken off the fill ports. -/
def dropBeats (r : Request) (k : Channel) : Channel :=
  r.takers.foldl (fun k n => updCoreOf k n fun c => { c with fill := c.fill.filter fun b => match b.kind with
    | .item ring slot seq _ => !(ring == r.ring && slot == r.slot && seq == r.seq && decide (k.cycles < b.arrive))
    | _ => true }) k

/-- A read cut off by the link: its beats do not come, and it is handled as an uncorrectable one. -/
def cutRead (ch : Nat) (s : State) (r : Request) : State :=
  let still := (coreOf (getCh s ch) (r.core.getD 0)).fill.any fun b => match b.kind with
    | .item ring slot seq _ => ring == r.ring && slot == r.slot && seq == r.seq && decide ((getCh s ch).cycles < b.arrive)
    | _ => false
  if still then readFails (updCh s ch (dropBeats r)) ch r else s

/-- CXL_LINK_DOWN (R201): outstanding reads do not land; the write queue is discarded, and an event names each page. -/
def execCxlLinkDown (ch : ChId) (s : State) : Host.Outcome State Fault Refusal :=
  let n := ch.toNat
  if !tierUp s n 2 then .next s
  else
    let k := getCh s n
    let dev := ownDev s
    let isCxl : Target → Bool := fun t => decide (t.dev = dev) && decide (t.ch = n) && decide (t.tier = 2)
    let s := cSet s n 0x201 1 4
    let s := (cxlInFlight k dev n).foldl (fun s p => writeLost s n p) s
    let s := updCh s n fun k => { k with cores := tabMap k.cores fun _ c => dropCxl k.cycles isCxl c }
    .next (((k.cores.map (·.1)).flatMap (cxlReads s n)).foldl (cutRead n) s)

/-- A trained width and rate that Table 9.4 allows. -/
def cxlFits (width rate : Byte) : Bool :=
  decide (width = 8 ∨ width = 4 ∨ width = 2) && decide (rate = 64 ∨ rate = 32)

/-- CXL_BRINGUP_COMPLETE (R199, R202, R390): the trained width and rate and the capacity, or a refused or absent device. -/
def execCxlBringupComplete (ch : ChId) (width rate : Byte) (cap : BitVec 64) (fits : Bool) (s : State) :
    Host.Outcome State Fault Refusal :=
  let n := ch.toNat
  if cGet s n 0x201 1 ≠ 1 then .next s
  else if width = 0 then .next (cSet s n 0x201 1 0)
  else if !fits ∨ !cxlFits width rate then .next (cSet s n 0x201 1 5)
  else
    let full := width = 8 ∧ rate = 64
    let s := cSet (cSet (cSet s n 0x201 2 width.toNat) n 0x201 3 rate.toNat) n 0x201 4 (min (2 ^ 40) (cap.toNat / 2097152 * 2097152))
    .next (cSet s n 0x201 1 (if full then 2 else 3))

end Sys2Proof.Machine
end

