-- ==== Sys2Proof/Machine/Lsu.lean ====
section
/-! DEFINITION. Lsu: the L slot (Table 2.8, R45, R46), its landings (R28, R80, R88), and the array's error code (R140). -/

namespace Sys2Proof.Machine

/-! ### The array's error code (R140) -/

/-- A counter field of an engine control register, saturating at 0xFFFF. -/
def ecrBump (a shift : Nat) (k : Core) : Core :=
  let v := (ecrGet k a).toNat
  if bits v shift 16 = 0xFFFF then k else ecrSet a (BitVec.ofNat 32 (v + 2 ^ shift)) k

/-- What a read through a port meets: a corrected bit is counted; a double error withdraws the core whose array failed, its data a
free value (R140, R268). -/
def eccRead (s : State) (c : CoreId) (o : Origin) (ecc : Ecc) (data : List Byte) : List Byte × State :=
  match ecc with
  | .clean => (data, s)
  | .single => (data, updCore s c (ecrBump 0x302 0))
  | .double =>
    let (n, s) := drawFree s
    let bad := freeBytes n data.length
    (bad, checkFailed s c ⟨5, o, freeNat n 10000, freeNat n 10008, [], 0, freeBytes n 4096, []⟩ 0xA3 true)

/-! ### Conditions -/

/-- The units an L transfer of a kind moves (R45, Table 2.8). -/
def kindUnits (kind : Nat) : Nat :=
  if kind = 1 ∨ kind = 3 then 128 else if kind = 2 then 1 else 16

/-- The conditions that a load's encoding shows (R25, Table 2.8). -/
def loadEncFault (ind : Bool) (kind : Nat) (reg : BitVec 5) (gi : BitVec 4) : Option Nat :=
  firstFault [(decide (5 ≤ kind), 0x03), (decide (kind = 1 ∨ kind = 2) && reg != 0, 0x11),
    (decide (kind = 3 ∨ kind = 4) && decide (16 ≤ reg.toNat), 0x11), (!ind && gi != 0, 0x08)]

/-- The conditions of a load (R25, R45). -/
def loadFault (k : Core) (ind : Bool) (kind : Nat) (reg : BitVec 5) (gi : BitVec 4) (addr : BitVec 16) : Option Nat :=
  match loadEncFault ind kind reg gi with
  | some r => some r
  | none => unitFault k (unitAddr k ind gi addr) (kindUnits kind)

/-- The conditions of a store (R25, R45, R252). -/
def storeFault (k : Core) (ind : Bool) (kind : Nat) (gi : BitVec 4) (addr : BitVec 16) : Option Nat :=
  match firstFault [(decide (5 ≤ kind), 0x03), (decide (kind ≠ 0), 0x10), (!ind && gi != 0, 0x08)] with
  | some r => some r
  | none => unitStoreFault k (unitAddr k ind gi addr) 16

/-! ### Loads and stores -/

/-- A load (R46): the scratchpad at the start of the next cycle, reaching its register four cycles after issue (Table 2.10); readLoad
follows the scratchpad until then. -/
def loadOp (s : State) (c : CoreId) (ind : Bool) (kind : Nat) (reg : BitVec 5) (gi : BitVec 4) (addr : BitVec 16) (ecc : Ecc) : State :=
  let k := startCore s c
  let u := unitAddr k ind gi addr
  let now := (getCh s (chOf c)).sched
  issue s c 2 (loadFault k ind kind reg gi addr) fun s =>
    let o := originOf k 2 0
    let s := readHazards s c 2 [.units u (kindUnits kind)]
    let r := eccRead s c o ecc (spadRead k u (kindUnits kind * 32) (now + 1))
    updCore r.2 c fun x => { x with lPipe := x.lPipe ++ [⟨now + 4, kind, reg.toNat, if ecc = .double then none else some u, r.1, o⟩] }

/-- A load of the last schedule cycle after a channel cycle (R46): until the next schedule cycle, `now`, begins, it takes what the
scratchpad holds then, braked cycles and the slots of its own row word counted (R135, R144). -/
def readLoad (now : Nat) (k : Core) (i : LItem) : LItem :=
  match i.unit with
  | none => i
  | some u => if i.due = now + 3 then { i with data := spadRead k u (kindUnits i.kind * 32) now } else { i with unit := none }

/-- LOAD (R46, Table 2.8). -/
def execLoad (c : CoreId) (ind : Bool) (kind : BitVec 3) (reg : BitVec 5) (gi : BitVec 4) (addr : BitVec 16) (ecc : Ecc) (s : State) :
    Host.Outcome State Fault Refusal :=
  .next (loadOp s c ind kind.toNat reg gi addr ecc)

/-- ACC_PRELOAD (R46, R88): kind 4. -/
def execAccPreload (c : CoreId) (ind : Bool) (reg : BitVec 5) (gi : BitVec 4) (addr : BitVec 16) (ecc : Ecc) (s : State) :
    Host.Outcome State Fault Refusal :=
  .next (loadOp s c ind 4 reg gi addr ecc)

/-- STORE (R46): the register at the start of the cycle, written in the next cycle through the engine write port. -/
def execStore (c : CoreId) (ind : Bool) (kind : BitVec 3) (reg : BitVec 5) (gi : BitVec 4) (addr : BitVec 16) (s : State) :
    Host.Outcome State Fault Refusal :=
  let k := startCore s c
  let u := unitAddr k ind gi addr
  .next (issue s c 2 (storeFault k ind kind.toNat gi addr) fun s =>
    updCore (readHazards s c 2 [.vreg reg.toNat]) c fun x =>
      { x with stq := x.stq ++ [⟨u, bytesOf (vReg k reg.toNat), originOf k 2 0⟩] })

/-! ### Landings -/

/-- A group of accumulators at task start: fast, all +0 (R85). -/
def Group.reset : Group :=
  { exact := false, fast := [], fastRes := [], ex := [], exRes := [], transEnd := 0 }

/-- A group of accumulators. -/
def groupOf (k : Core) (j : Nat) : Group :=
  tabGet k.groups Group.reset j

/-- A group changed. -/
def updGroup (j : Nat) (f : Group → Group) (k : Core) : Core :=
  { k with groups := tabUpd k.groups Group.reset j f }

/-- The fast accumulator m of a group in every lane. -/
def fastAcc (g : Group) (m : Nat) : List Word :=
  tabGet g.fast (List.replicate 128 0) m

/-- The exact accumulators of a group, one for each lane with its Ebase. -/
def exAccs (g : Group) : List ExImg :=
  if g.ex = [] then List.replicate 128 ⟨ExAcc.reset, 0⟩ else g.ex

/-- The residue of a fast accumulator's pattern modulo 7 (R104). -/
def wordRes (w : Word) : Nat :=
  w.toNat % 7

/-- The residue of an exact total modulo 7 (R104). -/
def exactRes (a : ExImg) : Nat :=
  (a.acc.t % 7).toNat

/-- A fast accumulator written in every lane, with its residues (R104). -/
def Group.putFast (m : Nat) (ws : List Word) (g : Group) : Group :=
  { g with fast := tabSet g.fast m ws, fastRes := tabSet g.fastRes m (ws.map wordRes) }

/-- The exact accumulators written, with their residues (R104). -/
def Group.putExact (l : List ExImg) (g : Group) : Group :=
  { g with ex := l, exRes := l.map exactRes }

/-- What a read of a fast accumulator compares in each lane: the stored residue and that of the value read (R104). -/
def fastResOf (g : Group) (m : Nat) : List (Nat × Nat) :=
  List.zip (tabGet g.fastRes (List.replicate 128 0) m) ((fastAcc g m).map wordRes)

/-- What a read of the exact accumulators compares in each lane (R104). -/
def exactResOf (g : Group) : List (Nat × Nat) :=
  List.zip (if g.exRes = [] then List.replicate 128 0 else g.exRes) ((exAccs g).map exactRes)

/-- MX_EBASEj, signed (Table 4.6). -/
def ebaseOf (k : Core) (j : Nat) : Int :=
  ((ecrGet k (0x104 + j)).setWidth 10).toInt

/-- Window bits [32m+31:32m] of a total replaced (R88). -/
def setWindow (t : Int) (m : Nat) (w : Word) : Int :=
  let v := (BitVec.ofInt 176 t).toNat
  (BitVec.ofNat 176 (v - bits v (32 * m) 32 * 2 ^ (32 * m) + w.toNat * 2 ^ (32 * m))).toInt

/-- One lane of a preload of an exact group; the top word completes it (R88). -/
def preloadLane (m : Nat) (eb : Int) (a : ExImg) (w : Word) : ExImg :=
  let t := setWindow a.acc.t m w
  if m = 3 then ⟨{ ExAcc.reset with t := ((BitVec.ofInt 176 t).setWidth 128).toInt }, eb⟩ else { a with acc := { a.acc with t := t } }

/-- A kind-4 landing in accumulator a(4j+m) (R88). -/
def preload (reg : Nat) (ws : List Word) (k : Core) : Core :=
  let j := reg / 4
  let m := reg % 4
  let eb := ebaseOf k j
  updGroup j (fun g =>
    if g.exact then g.putExact (List.zipWith (preloadLane m eb) (exAccs g) ws) else g.putFast m ws) k

/-- An update due in a cycle at an accumulator (R28, R90). -/
def updateMeets (k : Core) (due reg : Nat) : Bool :=
  k.mPipe.any fun m => m.due == due && m.op.hits reg

/-- A V result due in a cycle at a vector register (R28). -/
def resultMeets (k : Core) (due reg : Nat) : Bool :=
  k.vPipe.any fun i => i.due == due && i.vd == reg

/-- One load's data at its register (R28, R46, Tables 2.8, 4.1): discarded where a V result or an update reaches the register then. -/
def landLoad (k : Core) (i : LItem) : Core :=
  match i.kind with
  | 0 => if resultMeets k i.due i.reg then k else setV i.reg (wordsOf i.data) k
  | 1 => { k with laneOp := i.data }
  | 2 => { k with bcast := i.data }
  | 3 => { k with laneSt := tabSet k.laneSt i.reg i.data }
  | _ => if updateMeets k i.due i.reg then k else preload i.reg (wordsOf i.data) k

/-- LOAD_LANDING (R46, R88): the loads due in this schedule cycle. -/
def execLoadLanding (c : CoreId) (s : State) : Host.Outcome State Fault Refusal :=
  let now := schedNow (getCh s (chOf c))
  let s := landHazards s c ((getCore s c).lPipe.filter fun i => decide (i.due ≤ now))
  .next (updCore s c fun k =>
    { (k.lPipe.filter fun i => decide (i.due ≤ now)).foldl landLoad k with
      lPipe := k.lPipe.filter fun i => decide (now < i.due) })

end Sys2Proof.Machine
end

