-- ==== Sys2Proof/Machine/Streams.lean ====
section
/-! DEFINITION. Streams: the S slot (Table 2.9, R47, R142, R143), fetches, multicast (R149), remote reads (R148), put rings and egress
(R147), the siding's intake (R255, R257), and segment power (R138). -/

namespace Sys2Proof.Machine

/-! ### Conditions (R47, R142, R143) -/

/-- The ring slot at a pointer. -/
def slotAt (g : Ring) (n : Nat) : RSlot :=
  slotOf g n

/-- The next slot of a ring. -/
def nextSlot (d : Desc) (n : Nat) : Nat :=
  (n + 1) % max 1 d.slots

/-- The sputs of a put ring not credited at a schedule cycle (R147). -/
def uncredited (g : Ring) (now : Nat) : Nat :=
  (g.puts.filter fun p => match p.backAt with
    | some b => decide (now < b)
    | none => true).length

/-- The transfer an sget makes: none for a remote ring, which no map translates. -/
def sgetTrans (s : State) (c : CoreId) (k : Core) (d : Desc) (j : Nat) : Except Nat (Option Trans) :=
  if d.kind = 2 then .ok none else (translate s (chOf c) k.job (itemAddr d j) (itemBytes d) false false).map some

/-- The conditions of an sget (R47, R142, R143, R149, R252). -/
def sgetFault (s : State) (c : CoreId) (k : Core) (ring gi : Nat) (greg : Bool) (disp : BitVec 18) : Option Nat :=
  let g := ringOf k ring
  match g.desc with
  | none => some 0x2E
  | some d =>
    if d.kind = 1 ∨ d.kind = 4 ∨ (slotAt g g.tail).st ≠ .free then some 0x27
    else match sgetTrans s c k d (itemIndex k greg (BitVec.ofNat 4 gi) disp) with
      | .error r => some r
      | .ok _ => if touchesHeld k 0 (slotUnit d g.tail) (slotBytes d / 32) then some 0x2C else none

/-- The conditions of an sput (R47, R142, R147, R207). -/
def sputFault (s : State) (c : CoreId) (k : Core) (now ring gi : Nat) (greg : Bool) (disp : BitVec 18) : Option Nat :=
  let g := ringOf k ring
  match g.desc with
  | none => some 0x2E
  | some d =>
    if d.kind ≠ 1 ∨ d.slots ≤ uncredited g now then some 0x27
    else match translate s (chOf c) k.job (itemAddr d (itemIndex k greg (BitVec.ofNat 4 gi) disp)) (slotBytes d) true false with
      | .error r => some r
      | .ok _ => none

/-- The conditions that sdue, srel and sdrain share (R25, R47). -/
def pointFault (k : Core) (ring : Nat) (gi : BitVec 4) (greg : Bool) (disp : BitVec 18) : Option Nat :=
  if gi ≠ 0 ∨ greg = true ∨ disp ≠ 0 then some 0x08 else if (ringOf k ring).desc = none then some 0x2E else none

/-- Slot REL holds a consumed item: DUE, and on a remote ring past its due cycle, not released before (R143, R148, R149). -/
def consumed (d : Desc) (x : RSlot) (now : Nat) : Bool :=
  decide (x.st = .due) && !x.released && (d.kind != 2 || decide (x.dueAt ≤ now))

/-- The conditions of an srel (R143, R147). -/
def srelFault (k : Core) (now ring : Nat) (gi : BitVec 4) (greg : Bool) (disp : BitVec 18) : Option Nat :=
  match pointFault k ring gi greg disp with
  | some r => some r
  | none =>
    let g := ringOf k ring
    match g.desc with
    | none => some 0x2E
    | some d => if d.kind = 1 ∨ !consumed d (slotAt g g.rel) now then some 0x28 else none

/-! ### Transfers not ordered under R211 -/

/-- The puts of a channel's cores that no sdrain has covered. -/
def openPuts (k : Channel) : List Put :=
  k.cores.flatMap fun c => c.2.rings.flatMap fun g => g.2.puts.filter fun p => p.backAt.isNone

/-- The fetches of a channel's cores still in flight: home and length. -/
def openFetches (s : State) (ch : Nat) : List (Target × Nat) :=
  (getCh s ch).cores.flatMap fun c => c.2.rings.flatMap fun g => match g.2.desc with
    | none => []
    | some d =>
      if d.kind ≠ 0 ∧ d.kind ≠ 3 then []
      else (g.2.slots.filter fun x => x.2.st != .free && x.2.landed.isNone).flatMap fun x =>
        match translate s ch c.2.job x.2.item (itemBytes d) false false with
        | .ok t => t.dests.map fun h => (h, itemBytes d)
        | .error _ => []

/-- The bytes of the module's transfers that an access is not ordered with: those of open puts, and for a write those of fetches in
flight. -/
def openBytes (s : State) (write : Bool) : List (Target × Nat) :=
  (List.range 4).flatMap fun ch =>
    ((openPuts (getCh s ch)).flatMap fun p => p.dests.map fun y => (y, p.len)) ++ if write then openFetches s ch else []

/-- The byte offset of an address within its page. -/
def pageOffset (k : Channel) (job a : Nat) : Nat :=
  match regionAt k job a with
  | some r => (a - r.base * 65536) % pageSize r.psz
  | none => 0

/-- A transfer that touches bytes of a GDDR7 or CXL page that such a transfer of the module touches (R211, kind 0x0B). -/
def orderHazard (s : State) (c : CoreId) (k : Core) (t : Trans) (a len : Nat) (write : Bool) : State :=
  if !detects s c then s
  else
    let ch := getCh s (chOf c)
    let hit := t.dests.any fun x => x.tier != 0 && (openBytes s write).any fun p =>
      x.dev == p.1.dev && x.ch == p.1.ch && x.tier == p.1.tier && meets x.addr len p.1.addr p.2
    if hit then hazard s c 0x0B 5 k.pc k.sched (t.entry + pageOffset ch k.job a * 2 ^ 24) else s

/-! ### Fetches -/

/-- A slot issued: TAIL advances (R143). -/
def slotIssued (ring n seq item step dueAt : Nat) (c : Core) : Core :=
  updRing ring (fun g =>
    let g := updSlot n (fun x => { x with
      st := .issued, item := item, landed := none, dueAt := dueAt, written := [], freed := [], released := false, step := step,
      seq := seq }) g
    match g.desc with
    | some d => { g with tail := nextSlot d n }
    | none => g) c

/-- A fetch's bytes asked of its home (R145, R195, R201, R207, R210, R212). Nothing lands where no home gives an answer. -/
def fetchItem (s : State) (c : CoreId) (takers : List Nat) (ring slot seq order len : Nat) (t : Trans) (mem : Ecc) (o : Origin) : State :=
  match t.dests with
  | [] => s
  | h :: _ =>
    let r : Request := { tag := 0, core := some (inCh c), takers := takers, ring := ring, slot := slot, seq := seq, order := order,
                         write := false, cseq := 0, rel := none, job := (getCore s c).job, asked := 0, len := len, parts := 0, got := [],
                         home := h, alt := t.alt, notes := [], org := o }
    match askHome s (chOf c) r mem with
    | (s, true) => s
    | (s, false) => readFails s (chOf c) r

/-- SGET (R143, R142, R148, R149). -/
def execSget (c : CoreId) (ring : BitVec 5) (gi : BitVec 4) (greg : Bool) (disp : BitVec 18) (mem : Ecc) (s : State) :
    Host.Outcome State Fault Refusal :=
  let k := startCore s c
  let r := ring.toNat
  .next (issue s c 5 (sgetFault s c k r gi.toNat greg disp) fun s =>
    let ch := chOf c
    let n := inCh c
    let now := (getCh s ch).sched
    let g := ringOf k r
    match g.desc with
    | none => s
    | some d =>
      let j := itemIndex k greg gi disp
      let seq := (getCore s c).fillSeq * 128 + n
      let o := originOf k 5 (2 ^ 28 + r * 2 ^ 23 + gi.toNat * 2 ^ 19 + b2n greg * 2 ^ 18 + disp.toNat)
      let s := updCore s c fun x => { x with fillSeq := x.fillSeq + 1 }
      let takers := itemCores n d
      let s := updCh s ch fun q => takers.foldl (fun q m =>
        updCoreOf q m (slotIssued r g.tail seq (itemAddr d j) k.step (if d.kind = 2 then now + 48 else 0))) q
      if d.kind = 2 then
        updCh s ch fun q => { q with remotes := q.remotes ++ [⟨now + 24, issueOrder s c, n, bits d.faddr 16 7, itemAddr d j, r, g.tail, seq, o⟩] }
      else match sgetTrans s c k d j with
        | .ok (some t) => fetchItem (orderHazard s c k t (itemAddr d j) (itemBytes d) false) c takers r g.tail seq (issueOrder s c) (itemBytes d) t mem o
        | _ => s)

/-- SDUE (R143, R145, R148): HEAD becomes due six schedule cycles later, and its arrival is checked. -/
def execSdue (c : CoreId) (ring : BitVec 5) (gi : BitVec 4) (greg : Bool) (disp : BitVec 18) (s : State) :
    Host.Outcome State Fault Refusal :=
  let k := startCore s c
  let r := ring.toNat
  .next (issue s c 5 (pointFault k r gi greg disp) fun s =>
    let ch := chOf c
    let q := getCh s ch
    let g := ringOf k r
    match g.desc with
    | none => s
    | some d =>
      if d.kind = 1 then s
      else if d.kind = 2 ∨ (slotAt g g.head).st ≠ .issued then
        hazard s c 0x08 5 k.pc k.sched (slotUnit d g.head + r * 2 ^ 16)
      else
        let s := updCore s c (updRing r fun g =>
          { updSlot g.head (fun x => { x with st := .due, dueAt := q.sched + 6 }) g with head := nextSlot d g.head })
        if landedBefore q (inCh c) r g.head then s
        else
          let s := updCore s c fun x => ecrSet 0x383 (if ecrGet x 0x383 = 0xFFFFFFFF then 0xFFFFFFFF else ecrGet x 0x383 + 1) x
          raiseCause s ch q.sched ⟨1, inCh c, r, .landed (inCh c) r g.head⟩)

/-- The lead of a member's ring (Table 6.5, FADDR of kind 4), or the core itself. -/
def leadOf (core : Nat) (d : Desc) : Nat :=
  if d.kind = 4 then bits d.faddr 16 7 else core

/-- SREL (R143, R149): REL is freed; on a multicast ring the lead is told, and the lead's own slot waits for every member. -/
def execSrel (c : CoreId) (ring : BitVec 5) (gi : BitVec 4) (greg : Bool) (disp : BitVec 18) (s : State) :
    Host.Outcome State Fault Refusal :=
  let k := startCore s c
  let r := ring.toNat
  .next (issue s c 5 (srelFault k (getCh s (chOf c)).sched r gi greg disp) fun s =>
    let ch := chOf c
    let n := inCh c
    let g := ringOf k r
    match g.desc with
    | none => s
    | some d =>
      let s := updCore s c (updRing r fun g =>
        { updSlot g.rel (fun x => if d.kind = 3 then { x with released := true } else { x with st := .free }) g with
          rel := nextSlot d g.rel })
      if d.kind = 3 ∨ d.kind = 4 then
        updCh s ch fun q => { q with srels := q.srels ++ [⟨q.sched + 32, leadOf n d, r, g.rel, n⟩] }
      else s)

/-- A member's release at the lead: the slot is FREE once every member's has come (R149). -/
def leadReleased (lead : Nat) (x : SrelFly) (c : Core) : Core :=
  match (ringOf c x.ring).desc with
  | none => c
  | some d => updRing x.ring (updSlot x.slot fun y =>
      let freed := if y.freed.contains x.member then y.freed else y.freed ++ [x.member]
      if (itemCores lead d).all freed.contains then { y with st := .free, freed := [], released := false } else { y with freed := freed }) c

/-- MEMBER_SREL_ARRIVAL (R149): the releases that reach a lead core, 32 schedule cycles after their srels. -/
def execMemberSrelArrival (c : CoreId) (s : State) : Host.Outcome State Fault Refusal :=
  let n := inCh c
  .next (updCh s (chOf c) fun k =>
    let here : SrelFly → Bool := fun x => decide (x.lead = n) && decide (x.due ≤ schedNow k)
    (k.srels.filter here).foldl (fun k x => updCoreOf k n (leadReleased n x)) { k with srels := k.srels.filter fun x => !here x })

/-! ### Remote reads (R148) -/

/-- What a remote read meets at its source: a halt of the reader, or its 64 bytes. -/
def remoteFault (src : Core) (unit : Nat) : Option Nat :=
  if 65535 < unit ∨ !taskRuns src ∨ src.bound ≤ unit / 128 then some 0x2D else if !segOn src unit then some 0x26 else none

/-- One remote read performed, the i-th of its cycle; its bytes reach the reader's fill port 16 cycles later (DEDUCED: assumption log, 15). -/
def remoteOne (source : CoreId) (ecc : Ecc) (s : State) (x : RemoteFly × Nat) : State :=
  let ch := chOf source
  let f := x.1
  let src := getCore s source
  let reader := mkCore ch f.reader
  let s := rowHazard s reader source f.at_ f.unit f.ring (((nextBeat (getCh s ch) src).map (·.writes)).getD []) f.org
  let s := portHazards s reader source f.at_ f.unit 2 f.ring f.org
  match remoteFault src f.unit with
  | some r => haltOrigin s reader f.org r
  | none =>
    let r := eccRead s source ⟨src.pc, src.sched, 5, 0, src.step⟩ (if x.2 = 0 then ecc else .clean) (memRead src.spad (spadAddr src f.unit) 64)
    deliverItem r.2 ch [f.reader] f.ring f.slot f.seq f.order ((getCh s ch).cycles + 16 + x.2) r.1

/-- REMOTE_READ (R148, R228, R140): the reads that reach a source core in this schedule cycle, in ascending reader; n of them brake the
channel n − 1 cycles. -/
def execRemoteRead (c : CoreId) (ecc : Ecc) (s : State) : Host.Outcome State Fault Refusal :=
  let ch := chOf c
  let k := getCh s ch
  let due : RemoteFly → Bool := fun f => decide (f.source = inCh c) && decide (f.at_ ≤ schedNow k)
  let fs := (k.remotes.filter due).mergeSort fun a b => decide (a.reader ≤ b.reader)
  let s := updCh s ch fun k => { k with remotes := k.remotes.filter fun f => !due f }
  let s := fs.zipIdx.foldl (remoteOne c ecc) s
  if 1 < fs.length then
    .next (fs.foldl (fun s f => raiseCause s ch (schedNow k) ⟨5, f.reader, f.ring, .cycles (fs.length - 1)⟩) s)
  else .next s

/-- The remote slots of a core whose implicit check falls in this schedule cycle. -/
def remoteChecks (now : Nat) (c : Core) : List (Nat × Nat) :=
  c.rings.flatMap fun g => match g.2.desc with
    | none => []
    | some d => if d.kind ≠ 2 then []
                else (g.2.slots.filter fun x => decide (x.2.st = .issued) && decide (x.2.dueAt ≤ now + 6)).map fun x => (g.1, x.1)

/-- REMOTE_RING_CHECK (R148): at t + 42 each remote slot is checked, and becomes DUE at t + 48. A core that has halted brakes nothing
(R52, R232). -/
def execRemoteRingCheck (c : CoreId) (s : State) : Host.Outcome State Fault Refusal :=
  let ch := chOf c
  let k := getCh s ch
  let now := schedNow k
  .next ((remoteChecks now (getCore s c)).foldl (fun s x =>
    let s := updCore s c (updRing x.1 fun g =>
      let g := updSlot x.2 (fun y => { y with st := .due }) g
      match g.desc with
      | some d => { g with head := nextSlot d x.2 }
      | none => g)
    if landedBefore k (inCh c) x.1 x.2 || !coreLive (getCore s c) then s else
      let s := updCore s c fun y => ecrSet 0x383 (if ecrGet y 0x383 = 0xFFFFFFFF then 0xFFFFFFFF else ecrGet y 0x383 + 1) y
      raiseCause s ch now ⟨2, inCh c, x.1, .remote (inCh c) x.1 x.2⟩) s)

/-! ### Puts (R147) -/

/-- The beats of earlier sputs and sends of the core still to be read after a schedule cycle: Q of R147. -/
def egressQ (c : Core) : Nat :=
  (c.egress.map (·.left)).sum

/-- SPUT (R147, R207, R208): the head slot's beats are to be read from the next cycle on. -/
def execSput (c : CoreId) (ring : BitVec 5) (gi : BitVec 4) (greg : Bool) (disp : BitVec 18) (s : State) :
    Host.Outcome State Fault Refusal :=
  let k := startCore s c
  let r := ring.toNat
  let now := (getCh s (chOf c)).sched
  .next (issue s c 5 (sputFault s c k now r gi.toNat greg disp) fun s =>
    let ch := chOf c
    let g := ringOf k r
    match g.desc with
    | none => s
    | some d =>
      let a := itemAddr d (itemIndex k greg gi disp)
      match translate s ch k.job a (slotBytes d) true false with
      | .error _ => s
      | .ok t =>
        let o := originOf k 5 (2 * 2 ^ 28 + r * 2 ^ 23 + gi.toNat * 2 ^ 19 + b2n greg * 2 ^ 18 + disp.toNat)
        let s := noteWrite (orderHazard s c k t a (slotBytes d) true) ch k.job t
        updCore s c fun x =>
          let id := x.nextPut
          let e : Egress := ⟨now + 1 + egressQ x, issueOrder s c, id, r, slotUnit d g.tail, beatsOf (slotBytes d), [], t.dests, a, t.dur, none, o⟩
          updRing r (fun g => { g with
            tail := nextSlot d g.tail
            puts := (g.puts.filter fun p => match p.backAt with
              | some b => decide (now < b)
              | none => true) ++ [⟨id, if t.dur then 1 else t.dests.length, none, none, t.dests, slotBytes d⟩] })
            { x with nextPut := id + 1, egress := x.egress ++ [e] })

/-- SDRAIN (R147): every earlier sput of the ring is complete, or the channel brakes; their credits return six cycles later. -/
def execSdrain (c : CoreId) (ring : BitVec 5) (gi : BitVec 4) (greg : Bool) (disp : BitVec 18) (s : State) :
    Host.Outcome State Fault Refusal :=
  let k := startCore s c
  let r := ring.toNat
  .next (issue s c 5 (pointFault k r gi greg disp) fun s =>
    let ch := chOf c
    let q := getCh s ch
    match (ringOf k r).desc with
    | none => s
    | some d =>
      if d.kind ≠ 1 then s
      else
        let ok := putsBefore q (inCh c) r
        let s := updCore s c (updRing r fun g => { g with puts := g.puts.map fun p =>
          if p.backAt.isNone then { p with backAt := some (q.sched + 6) } else p })
        if ok then s else raiseCause s ch q.sched ⟨3, inCh c, r, .putsDone (inCh c) r⟩)

/-- A beat of a put bound for another core's scratchpad in the same channel reaches its fill port (R147). -/
def putBeat (s : State) (c : CoreId) (e : Egress) (t : Target) (i : Nat) (isLast : Bool) (b : List Byte) : State :=
  let ch := chOf c
  let k := getCh s ch
  let lo := t.addr % 2 ^ 21
  let total := (e.data.length / 256 + e.left) * 256
  let ref : PutRef := ⟨inCh c, e.ring, e.id, lo, total, isLast, e.org⟩
  updCh s ch fun q => updCoreOf q (bits t.addr 21 7) fun x => { x with
    fill := x.fill ++ [⟨k.cycles + 39, e.order, .put ref, [(lo + 256 * i, b)]⟩] }

/-- A put to a scratchpad of another channel of the module that reaches beyond the target's rows, or into its held units: refused whole
before any of it is written (R212, R252). -/
def putElsewhere (s : State) (t : Target) (len : Nat) : Option Nat :=
  if t.tier = 0 ∧ t.dev = ownDev s then
    match putFate (coreOf (getCh s t.ch) (bits t.addr 21 7)) (t.addr % 2 ^ 21) len with
    | .halted r => some r
    | _ => none
  else none

/-- The put is one whose bytes the replica digest covers (R278): its job and its region are named. -/
def digested (s : State) (ch job faddr : Nat) : Bool :=
  decide (cGet s ch 0x706 2 ≠ 0) && decide (cGet s ch 0x706 3 = job) &&
    (getCh s ch).regions.any fun e => bit (cGet s ch 0x706 1) e.1 && e.2.job == job &&
      decide (e.2.base * 65536 ≤ faddr ∧ faddr < e.2.base * 65536 + regionBytes e.2)

/-- A put's digest folded into its core's, in egress order (R278). -/
def digestPut (s : State) (c : CoreId) (faddr : Nat) (data : List Byte) : State :=
  if digested s (chOf c) (getCore s c).job faddr then
    updCore s c fun x => { x with rdig := digFold x.rdig (msgDigest (padTo ((data.length + 511) / 512 * 512) data)) }
  else s

/-- The request of a put at one of its homes in another channel or module; `alt` is its other copy. -/
def putRequest (core job : Nat) (e : Egress) (t : Target) (len : Nat) : Request :=
  { tag := 0, core := some core, takers := [], ring := e.ring, slot := 0, seq := e.id, order := 0, write := true, cseq := 0, rel := none, job := job,
    asked := 0, len := len, parts := 0, got := [], home := t, alt := e.dests.find? fun o => o != t, notes := [], org := e.org }

/-- A home of a replicated put that has become unreachable while the other is reachable (R210). -/
def leftStale (s : State) (ch : Nat) (e : Egress) (t : Target) : Bool :=
  !homeReach s ch t && e.dests.any fun o => o != t && homeReach s ch o

/-- A put read whole: it goes to its homes, or to the siding (R147, R197, R209, R210, R312). -/
def putRead (s : State) (c : CoreId) (e : Egress) (data : List Byte) : State :=
  let ch := chOf c
  let now := (getCh s ch).cycles
  let fly := fun (s : State) (ds : List Target) (dur : Bool) => updCore s c fun x => { x with
    putFly := x.putFly ++
      [⟨now + ((e.dests.map (nominal s ch)).foldl max 0) + ((ds.map fun t => lateness s ch t.tier).foldl max 0) - 1, e.ring, e.id, ds, e.faddr, data, dur, none, e.org⟩] }
  if e.dur then fly s e.dests true
  else
    let own := e.dests.filter fun t => isOwn s ch t && t.tier != 0
    let s := if own = [] then s else fly s own false
    (e.dests.filter fun t => !isOwn s ch t).foldl (fun s t =>
      if leftStale s ch e t then updCore (staleEvent s ch (getCore s c).job t) c (putAccepted now e.ring e.id)
      else match putElsewhere s t data.length with
      | some r => updCore (haltOrigin s c e.org r) c (putAccepted now e.ring e.id)
      | none => makeRequest s ch (putRequest (inCh c) (getCore s c).job e t data.length) data) s

/-- A message read whole leaves: to its peer, or to the siding at the hub data port (R157, R255). -/
def sendRead (s : State) (c : CoreId) (m : Msg) (data : List Byte) : State :=
  let ch := chOf c
  let m := { m with payload := data, digest := if m.digest.isSome then some (msgDigest data) else none }
  if m.fromNode then updCore s c fun x => { x with
    putFly := x.putFly ++ [⟨(getCh s ch).cycles, 0, 0, [], 0, data, true, some m, m.org⟩] }
  else sendMsg s ch (slotNumber s ch (some (inCh c))) m

/-- The beat of an egress job that is due, read (R147). -/
def egressOne (s : State) (c : CoreId) (ecc : Ecc) (e : Egress) : State :=
  let ch := chOf c
  let src := getCore s c
  let s := if e.msg.isSome then s
           else portHazards (rowHazard s c c e.next e.addr e.ring (((nextBeat (getCh s ch) src).map (·.writes)).getD []) e.org) c c e.next e.addr 8 e.ring e.org
  let r := eccRead s c e.org ecc (spadRead src e.addr 256 e.next)
  let i := e.data.length / 256
  let isLast := decide (e.left ≤ 1)
  let s := match e.msg with
    | some _ => r.2
    | none => if e.dur then r.2 else
        (e.dests.filter fun t => isOwn r.2 ch t && t.tier == 0).foldl (fun s t => putBeat s c e t i isLast r.1) r.2
  let e' := { e with next := e.next + 1, addr := e.addr + 8, left := e.left - 1, data := e.data ++ r.1 }
  let s := updCore s c fun x => { x with
    egQueue := x.egQueue + 256
    egress := if isLast then x.egress.erase e else x.egress.map fun y => if y = e then e' else y }
  if !isLast then s
  else match e.msg with
    | some m => sendRead s c m e'.data
    | none => putRead (digestPut s c e.faddr e'.data) c e e'.data

/-- The markers at the head of the egress queue that are due: each leaves behind what its entry had to read (R155, R156). -/
def egressMarkers (s : State) (c : CoreId) : State :=
  let now := schedNow (getCh s (chOf c))
  let ms := (getCore s c).egress.takeWhile fun e => e.left == 0 && decide (e.next ≤ now)
  ms.foldl (fun s e => match e.msg with
    | some m => sendMsg s (chOf c) (slotNumber s (chOf c) (some (inCh c))) m
    | none => s) (updCore s c fun x => { x with egress := x.egress.drop ms.length })

/-- EGRESS_BEAT (R147, R157, R228): the egress port reads the beat due in this schedule cycle; a full queue brakes the channel under
cause 0x04 until the beat is read. -/
def execEgressBeat (c : CoreId) (ecc : Ecc) (s : State) : Host.Outcome State Fault Refusal :=
  let ch := chOf c
  let s := egressMarkers s c
  let k := getCh s ch
  let x := getCore s c
  match x.egress.find? fun e => decide (e.next ≤ schedNow k) with
  | none => .next s
  | some e =>
    if 65536 < x.egQueue + 256 then
      if k.brake.causes.any fun b => b.code == 4 && b.core == inCh c then .next s
      else .next (raiseCause s ch (schedNow k) ⟨4, inCh c, e.ring, .egress (inCh c)⟩)
    else .next (egressOne s c ecc e)

/-- A put that is complete at the homes of its channel: written there (R147). -/
def completePut (s : State) (c : CoreId) (p : PutFly) : State :=
  let ch := chOf c
  p.dests.foldl (fun s t =>
    let s := if !rangeThere s ch t.tier t.addr p.data.length then haltOrigin s c p.org 0x2A else tierPut s ch t.tier t.addr p.data
    updCore s c (putAccepted (getCh s ch).cycles p.ring p.id)) s

/-- SPUT_COMPLETE (R147, R212): the puts of a core whose last byte its channel's GDDR7 or CXL accepts in this cycle. -/
def execSputComplete (c : CoreId) (s : State) : Host.Outcome State Fault Refusal :=
  let now := (getCh s (chOf c)).cycles
  let due : PutFly → Bool := fun p => !p.dur && decide (p.due ≤ now)
  let ps := (getCore s c).putFly.filter due
  .next (ps.foldl (fun s p => completePut s c p) (updCore s c fun x => { x with putFly := x.putFly.filter fun p => !due p }))

/-! ### The siding (R255, R257) -/

/-- One item at the siding: kept with its job and step, or found too much (R257). -/
def sidingTake (s : State) (ch core : Nat) (p : PutFly) : State :=
  let job := (coreOf (getCh s ch) core).job
  let k := getCh s ch
  let s := if p.msg.isSome then s else updCh s ch fun k => updCoreOf k core (putAccepted k.cycles p.ring p.id)
  if 16777216 < k.sideUsed + p.data.length then
    let s := updJobCh (dSat s (cIdx ch 0x700) 10 1) ch job fun v => { v with overflow := true }
    chEvent s ch 0x0044 job (leBytes 8 p.org.step)
  else updCh s ch fun k => { k with
    siding := k.siding ++ [⟨job, p.org.step, core, p.org, p.faddr, p.dests, p.msg, p.data⟩]
    sideUsed := k.sideUsed + p.data.length }

/-- SIDING_ENTRY (R255, R209, R345): the durable puts and the messages to the control node that complete at the channel's siding. -/
def execSidingEntry (ch : ChId) (s : State) : Host.Outcome State Fault Refusal :=
  let n := ch.toNat
  let k := getCh s n
  let due : PutFly → Bool := fun p => p.dur && decide (p.due ≤ k.cycles)
  let items := k.cores.flatMap fun c => (c.2.putFly.filter due).map fun p => (c.1, p)
  let s := updCh s n fun k => { k with cores := tabMap k.cores fun _ c => { c with putFly := c.putFly.filter fun p => !due p } }
  .next ((items.mergeSort fun a b => decide (a.2.due ≤ b.2.due)).foldl (fun s i => sidingTake s n i.1 i.2) s)

/-! ### Segment power (Table 6.3) -/

/-- A segment whose count has run out, and whether its rows are zeroed. -/
def segExpire (now : Nat) (g : Seg) : Seg × Bool :=
  match g.st with
  | .shutdown => ({ g with st := .off }, false)
  | .restarting => (⟨.zeroing, now + 64, g.down⟩, false)
  | .zeroing => if g.down then (⟨.shutdown, now + 16, false⟩, true) else (⟨.on, now, false⟩, true)
  | _ => (g, false)

/-- SEGMENT_STATE_TIMEOUT (R138, R139): the segments of a core whose count ends; a segment that powered up reads zero. -/
def execSegmentStateTimeout (c : CoreId) (s : State) : Host.Outcome State Fault Refusal :=
  let now := schedNow (getCh s (chOf c))
  .next (updCore s c fun x => (x.segs.filter fun g => decide (g.2.till < now) && g.2.st != .on && g.2.st != .off).foldl (fun x g =>
    let r := segExpire g.2.till g.2
    { x with segs := tabSet x.segs g.1 r.1, spad := if r.2 then memZero x.spad (g.1 * 262144) 262144 else x.spad }) x)

end Sys2Proof.Machine
end

