-- ==== Sys2Proof/Machine/Xunit.lean ====
section
/-! DEFINITION. Xunit: the X slot and its issue queue (R48, Table 2.11), coupling (R152-R156), sends (R157-R161), receives (R162-R165),
the hopper (R166-R169), and the arrivals at a receive store. -/

namespace Sys2Proof.Machine

/-! ### Connections and queues -/

/-- A connection-table entry that is VALID. -/
def connOf (k : Core) (n : Nat) : Option Conn :=
  tabFind k.conns n

/-- A connection-table entry changed, where it is VALID. -/
def updConn (n : Nat) (f : Conn → Conn) (k : Core) : Core :=
  { k with conns := tabMap k.conns fun m e => if m = n then f e else e }

/-- The receive ends that bind a queue. -/
def endsOf (k : Core) (qn : Nat) : List Conn :=
  (k.conns.filter fun e => e.2.role != 0 && e.2.queue == qn).map (·.2)

/-- The receive end whose fields a bound queue takes (R153: they agree). -/
def endOf (k : Core) (qn : Nat) : Option Conn :=
  (endsOf k qn).head?

/-- The queue is a hopper queue. -/
def isHopper (k : Core) (qn : Nat) : Bool :=
  (endsOf k qn).any fun e => e.role == 2

/-- Every receive end of a queue is closed. -/
def allClosed (k : Core) (qn : Nat) : Bool :=
  (endsOf k qn).all fun e => !e.isOpen

/-- The bytes of a message of a SIZE. -/
def sizeBytes (n : Nat) : Nat :=
  512 * (n + 1)

/-- A core's logical address (Table 7.2). -/
def addrOf (s : State) (c : CoreId) : Nat :=
  ownDev s * 512 + c.toNat

/-- The peer's logical address; zero for the control node. -/
def peerOf (e : Conn) : Nat :=
  if e.peerk then 0 else e.pdev * 512 + e.pch * 128 + e.pcl * 16 + e.pcore

/-! ### Conditions at issue -/

/-- The units of a transfer all lie within the rows and in powered segments (R45, R157, R162). -/
def spanFault (k : Core) (unit n : Nat) : Option Nat :=
  firstFault [(decide (65535 < unit), 0x22), (decide (unit % 16 ≠ 0), 0x23), (decide (k.bound ≤ (unit + n - 1) / 128), 0x21),
    (!segOn k unit || !segOn k (unit + n - 1), 0x26)]

/-- The payload length of a send (Table 2.11). -/
def sendLen (src : Bool) (lo : BitVec 21) : Nat :=
  if src then sizeBytes (bits lo.toNat 18 3) else 512

/-- The X issue queue is full (R48). -/
def xFull (k : Core) : Bool :=
  decide (8 ≤ k.xq.length)

/-- What a send shows by its encoding: its unused fields, and its scratchpad source (R25, R45, R157, R241). -/
def sendEncFault (k : Core) (src : Bool) (lo : BitVec 21) : Option Nat :=
  let n := lo.toNat
  if (src ∧ bits n 16 2 ≠ 0) ∨ (!src ∧ bits n 0 16 ≠ 0) then some 0x08
  else if src then spanFault k (bits n 0 16) (sendLen src lo / 32) else none

/-- The conditions of a send at issue (R25, R48, R156, R157). -/
def sendFault (k : Core) (conn : Nat) (src : Bool) (lo : BitVec 21) : Option Nat :=
  let n := lo.toNat
  if (src ∧ bits n 16 2 ≠ 0) ∨ (!src ∧ bits n 0 16 ≠ 0) then some 0x08
  else if xFull k then some 0x61
  else match connOf k conn with
    | none => some 0x43
    | some e =>
      if e.role ≠ 0 then some 0x43
      else if sizeBytes e.size < sendLen src lo then some 0x44
      else if src then spanFault k (bits n 0 16) (sendLen src lo / 32) else none

/-- The conditions of a recv at issue (R25, R48, R162). -/
def recvFault (k : Core) (qn : Nat) (dst : Bool) (vd : BitVec 5) (rsv : BitVec 2) (unit : BitVec 16) : Option Nat :=
  firstFault [(rsv != 0 || (dst && vd != 0) || (!dst && unit != 0), 0x08), (xFull k, 0x61), ((endsOf k qn).isEmpty, 0x47)]

/-- The queues a mask names. -/
def maskQueues (mask : BitVec 16) : List Nat :=
  (List.range 16).filter fun n => mask.getLsbD n

/-- The conditions of a sel at issue (R25, R48, R163). -/
def xSelFault (k : Core) (mask : BitVec 16) (rsv : BitVec 1) : Option Nat :=
  firstFault [(rsv != 0, 0x08), (xFull k, 0x61), ((maskQueues mask).any fun q => (endsOf k q).isEmpty, 0x47)]

/-- An object is granted to the core's job (R171). -/
def granted (s : State) (ch : Nat) (k : Core) (obj : Nat) : Bool :=
  (tabFind (getCh s ch).objs obj).any fun o => o.job == some k.job

/-- The conditions of a wait at issue (R25, R48, R171). -/
def waitFault (s : State) (ch : Nat) (k : Core) (obj : Nat) (rsv : BitVec 11) : Option Nat :=
  firstFault [(rsv != 0, 0x08), (xFull k, 0x61), (!granted s ch k obj, 0x62)]

/-- The conditions of a signal at issue (R25, R48, R171, Table 2.11). -/
def signalFault (s : State) (ch : Nat) (k : Core) (obj inc : Nat) : Option Nat :=
  firstFault [(decide (inc = 0), 0x09), (xFull k, 0x61), (!granted s ch k obj, 0x62)]

/-- The conditions of a couple or uncouple at issue (R25, R48, R155). -/
def coupleFault (k : Core) (conn : Nat) (rsv : BitVec 22) : Option Nat :=
  firstFault [(rsv != 0, 0x08), (xFull k, 0x61), ((connOf k conn).isNone, 0x45)]

/-! ### Sends -/

/-- The message of a send end as it stands. -/
def msgFrom (s : State) (c : CoreId) (conn type seq : Nat) (e : Conn) (o : Origin) : Msg :=
  { type := type, src := addrOf s c, dst := peerOf e, entry := conn, gen := e.gen, queue := e.queue,
    sidx := e.hcount, seq := seq, digest := if type = 0 ∧ e.digest then some 0 else none, payload := [],
    fromNode := e.peerk, org := o }

/-- Where the send that a refusal names is kept (R160): a connection's messages by SEQ, its couples apart. -/
def sendKey (conn seq : Nat) : Nat :=
  conn * 65536 + seq

/-- A marker leaves: behind what the entry still has to read (R155, R156). -/
def sendMarker (s : State) (c : CoreId) (m : Msg) : State :=
  let ch := chOf c
  let core := getCore s c
  if m.fromNode then s
  else if core.egress.any fun e => e.msg.any fun x => x.entry == m.entry then
    updCore s c fun x => { x with egress := x.egress ++
      [⟨(getCh s ch).sched + 1 + egressQ core, issueOrder s c, 0, 0, 0, 0, [], [], 0, false, some m, m.org⟩] }
  else sendMsg s ch (slotNumber s ch (some (inCh c))) m

/-- A send at the head (R156, R157). -/
def xSend (s : State) (c : CoreId) (conn : Nat) (src : Bool) (lo : BitVec 21) (o : Origin) : State :=
  let ch := chOf c
  match connOf (getCore s c) conn with
  | none => haltOrigin s c o 0x43
  | some e =>
    let bump := updConn conn fun e => { e with seq := (e.seq + 1) % 65536 }
    if !e.isOpen then
      if e.refused then updCore s c fun x => bump (ecrBump 0x3C5 16 x)
      else haltOrigin s c o 0x43
    else
      let m := msgFrom s c conn 0 e.seq e o
      let s := updCore s c fun x => bump { x with sends := tabSet x.sends (sendKey conn e.seq) o }
      if src then
        updCore s c fun x => { x with egress := x.egress ++
          [⟨(getCh s ch).sched + 1 + egressQ x, issueOrder s c, 0, 0, bits lo.toNat 0 16, 2 * (sendLen src lo / 512), [], [], 0, false, some m, o⟩] }
      else sendRead (readHazards s c 6 [.vreg (bits lo.toNat 16 5)]) c m (bytesOf (vReg (startCore s c) (bits lo.toNat 16 5)))

/-- A couple at the head (R154, R155). -/
def xCouple (s : State) (c : CoreId) (conn : Nat) (o : Origin) : State :=
  match connOf (getCore s c) conn with
  | none => haltOrigin s c o 0x45
  | some e =>
    if e.role ≠ 0 then updCore s c (updConn conn fun e => { e with isOpen := true })
    else if e.isOpen then haltOrigin s c o 0x45
    else
      let s := updCore s c fun x => updConn conn (fun e => { e with gen := (e.gen + 1) % 256, seq := 0, isOpen := true, refused := false })
        { x with sends := tabSet x.sends (sendKey (64 + conn) 0) o }
      sendMarker s c (msgFrom s c conn 1 0 { e with gen := (e.gen + 1) % 256 } o)

/-- An uncouple at the head (R154, R156). -/
def xUncouple (s : State) (c : CoreId) (conn : Nat) (o : Origin) : State :=
  match connOf (getCore s c) conn with
  | none => haltOrigin s c o 0x45
  | some e =>
    let s := updCore s c (updConn conn fun e => { e with isOpen := false })
    if e.role = 0 ∧ e.isOpen then sendMarker s c (msgFrom s c conn 2 e.seq e o) else s

/-! ### Receives -/

/-- A payload made as long as a SIZE of the hopper: what the slot holds at its end (R167). -/
def imageRaw (b : List Byte) : ExImg :=
  let st := fld b 24 1
  ⟨⟨(BitVec.ofNat 176 (fld b 0 22)).toInt, fld b 25 6, bit st 0, bit st 1, bit st 2, bit st 3⟩, (BitVec.ofNat 16 (fld b 22 2)).toInt⟩

/-- An image of all zeros with an EBASE and a count. -/
def zeroImage (n : Nat) (ebase : Int) : ExImg :=
  ⟨{ ExAcc.reset with n := n }, ebase⟩

/-- A slot's result: what no contribution reached is +0, or images of zeros with EBASE 0 that were combined `folded` − 1 times (R167). -/
def hopperResult (e : Conn) (x : HSlot) : List Byte :=
  let size := sizeBytes e.size
  if e.harith = 0 then
    x.sum ++ (List.range ((size - x.sum.length) / 32)).flatMap fun _ => imageBytes (zeroImage (x.folded - 1) 0)
  else padTo size x.sum

/-- A hopper slot after its result is read (R166). -/
def slotRead (depth : Nat) (x : HSlot) : HSlot :=
  HSlot.reset ((x.expect + depth + 1) % 65536)

/-- The digest a taken slot latches (R169): none unless every contribution carried one. -/
def latchDigest (e : Conn) (x : HSlot) (k : Core) : Core :=
  if x.digs.length = e.hcount + 1 then
    let d := slotDigest ((x.digs.mergeSort fun a b => decide (a.1 ≤ b.1)).map (·.2))
    ecrSet 0x500 (BitVec.ofNat 32 d) (ecrSet 0x501 (BitVec.ofNat 32 (d / 2 ^ 32)) k)
  else k

/-- The message or result a receive takes from a queue, its read falling in the cycle after `base` (R162). -/
def takeQueue (k : Core) (qn base : Nat) : List Byte × Core :=
  let q := queueOf k qn
  match endOf k qn with
  | none => ([], k)
  | some e =>
    if e.role = 2 then
      let x := hslotOf q q.next
      (hopperResult e x, latchDigest e x (updQueue qn (fun q => { q with
        slots := tabSet q.slots q.next (slotRead e.depth x)
        next := (q.next + 1) % (e.depth + 1)
        reading := some (q.next, base + 1) }) k))
    else match q.msgs with
      | [] => ([], k)
      | m :: r => (m.2.payload, updQueue qn (fun q => { q with msgs := r, reading := some (0, base + 1) }) k)

/-- A receive executes with base cycle `base` (R162): into a vector register, or through the fill port into the scratchpad. -/
def recvTake (s : State) (c : CoreId) (qn : Nat) (dst : Bool) (vd unit base : Nat) (o : Origin) : State :=
  let r := takeQueue (getCore s c) qn base
  let n := r.1.length
  let s := updCore s c fun _ => r.2
  if !dst then
    if 512 < n then haltOrigin s c o 0x48
    else updCore s c fun x => { x with lPipe := x.lPipe ++ [⟨base + 4, 0, vd, none, r.1, o⟩] }
  else
    let k := getCore s c
    match (match spanFault k unit (n / 32) with
      | some f => some f
      | none => if touchesHeld k 0 unit (n / 32) then some 0x2C else none) with
    | some f => haltOrigin s c o f
    | none => updCore s c fun x => { x with
        xHold := base + n / 256
        fill := x.fill ++ (chunksOf 256 (n / 256) r.1).mapIdx fun i b => ⟨base + 2 + i, 0, .recv, [(unit * 32 + 256 * i, b)]⟩ }

/-- The queue a sel chooses among those that hold a message (R163). -/
def selPick (present : Nat → Bool) (mask : BitVec 16) (pol : Bool) (rot : Nat) : Option Nat :=
  let order := if pol then (List.range 16).map fun i => (rot + 1 + i) % 16 else List.range 16
  order.find? fun q => mask.getLsbD q && present q

/-! ### The head of the X issue queue (R48) -/

/-- The head leaves the queue. -/
def xPop (k : Core) : Core :=
  { k with xq := k.xq.tail }

/-- A strict receive for whose message the brake waited reads it in the first schedule cycle after, its base the cycle of its check (R162). -/
def xFinish (s : State) (c : CoreId) : State :=
  let k := getCh s (chOf c)
  match (getCore s c).xWait with
  | some ⟨.recv qn dst vd unit, _, o⟩ =>
    if queuePresent k (getCore s c) qn then recvTake (updCore s c fun x => { x with xWait := none }) c qn dst vd unit (k.sched - 1) o else s
  | _ => s

/-- A receive at the head with nothing in its queue (R162): a closed queue halts; a strict one has executed, and the channel brakes until
its message is there; a lenient one holds. -/
def recvEmpty (s : State) (c : CoreId) (qn : Nat) (e : XEntry) : State :=
  let ch := chOf c
  let x := getCore s c
  if allClosed x qn then haltOrigin s c e.org 0x47
  else if (endOf x qn).any (·.strict) then
    let s := updCore s c fun x => { xPop x with xRan := (getCh s ch).sched + 1, xWait := some e }
    raiseCause s ch (getCh s ch).sched ⟨7, inCh c, 0, .message (inCh c) qn⟩
  else updCore s c fun x => { x with xHeld := true }

/-- A wait's request leaves for the object's home, 16 cycles away (R172). -/
def xWait (s : State) (c : CoreId) (obj thr : Nat) (mode : Bool) (o : Origin) : State :=
  let s := updCore s c fun x => { x with
    xHeld := true, xq := x.xq.mapIdx fun i e => if i = 0 then { e with sent := true } else e }
  updCh s (chOf c) fun k => { k with syncFly := k.syncFly ++ [⟨k.cycles + 16, obj, inCh c, .wait thr mode, o⟩] }

/-- A signal leaves for the object's home (R172). -/
def xSignal (s : State) (c : CoreId) (obj inc : Nat) (o : Origin) : State :=
  updCh s (chOf c) fun k => { k with syncFly := k.syncFly ++ [⟨k.cycles + 16, obj, inCh c, .signal inc, o⟩] }

/-- The head entry executes, or holds. A sel reads MS_ROT as it stands at the start of the cycle (R26, R44). -/
def xHead (s : State) (c : CoreId) (x : XEntry) : State :=
  let k := getCh s (chOf c)
  let core := getCore s c
  let ran := fun s => updCore s c fun y => { xPop y with xRan := k.sched + 1 }
  match x.op with
  | .send conn src lo => xSend (ran s) c conn src lo x.org
  | .couple conn => xCouple (ran s) c conn x.org
  | .uncouple conn => xUncouple (ran s) c conn x.org
  | .signal obj inc => xSignal (ran s) c obj inc x.org
  | .wait obj thr mode => if x.sent then updCore s c fun y => { y with xHeld := true } else xWait s c obj thr mode x.org
  | .recv qn dst vd unit =>
    if queuePresent k core qn then recvTake (ran s) c qn dst vd unit k.sched x.org else recvEmpty s c qn x
  | .sel mask pol dst vd unit =>
    match selPick (queuePresent k core) mask pol ((ecrGet (startCore s c) 0x3C3).toNat % 16) with
    | none => updCore s c fun y => { y with xHeld := true }
    | some q =>
      let s := updCore (ran s) c fun y =>
        let y := if pol then ecrSet 0x3C3 (BitVec.ofNat 32 q) y else y
        { y with xLast := some q }
      recvTake s c q dst vd unit k.sched x.org

/-- At most one entry executes in a schedule cycle (R48). -/
def xRunOnce (s : State) (c : CoreId) : State :=
  let k := getCh s (chOf c)
  let x := getCore s c
  if brakeNow k ∨ k.st ≠ .serving ∨ !(x.status == .running || x.status == .done) ∨ x.xRan = k.sched + 1 then s
  else
    let s := updCore s c fun y => { y with xHeld := false }
    match (getCore s c).xq with
    | [] => s
    | e :: _ => if k.sched < (getCore s c).xHold then updCore s c fun y => { y with xHeld := true } else xHead s c e

/-- An X instruction issues: it enters the queue, whose head may execute in the same cycle (R48). -/
def xIssue (s : State) (c : CoreId) (fault : Option Nat) (op : XOp) (word : Nat) : State :=
  let k := startCore s c
  issue s c 6 fault fun s => xRunOnce (updCore s c fun x => { x with xq := x.xq ++ [⟨op, false, originOf k 6 word⟩] }) c

/-! ### Slot commands -/

/-- SEND (R157). -/
def execSend (c : CoreId) (conn : BitVec 6) (src : Bool) (lo : BitVec 21) (s : State) : Host.Outcome State Fault Refusal :=
  .next (xIssue s c (sendFault (startCore s c) conn.toNat src lo) (.send conn.toNat src lo)
    (2 ^ 28 + conn.toNat * 2 ^ 22 + b2n src * 2 ^ 21 + lo.toNat))

/-- RECV (R162). -/
def execRecv (c : CoreId) (qn : BitVec 4) (dst : Bool) (vd : BitVec 5) (rsv : BitVec 2) (unit : BitVec 16) (s : State) :
    Host.Outcome State Fault Refusal :=
  .next (xIssue s c (recvFault (startCore s c) qn.toNat dst vd rsv unit) (.recv qn.toNat dst vd.toNat unit.toNat)
    (2 * 2 ^ 28 + qn.toNat * 2 ^ 24 + b2n dst * 2 ^ 23 + vd.toNat * 2 ^ 18 + unit.toNat))

/-- X_SEL (R163). -/
def execXSel (c : CoreId) (mask : BitVec 16) (pol dst : Bool) (vd : BitVec 5) (gi : BitVec 4) (rsv : BitVec 1) (s : State) :
    Host.Outcome State Fault Refusal :=
  let k := startCore s c
  .next (xIssue s c (xSelFault k mask rsv) (.sel mask pol dst vd.toNat (gReg k gi.toNat).toNat)
    (3 * 2 ^ 28 + mask.toNat * 2 ^ 12 + b2n pol * 2 ^ 11 + b2n dst * 2 ^ 10 + vd.toNat * 2 ^ 5 + gi.toNat * 2))

/-- WAIT (R172). -/
def execWait (c : CoreId) (obj : BitVec 12) (gi : BitVec 4) (mode : Bool) (rsv : BitVec 11) (s : State) :
    Host.Outcome State Fault Refusal :=
  let k := startCore s c
  .next (xIssue s c (waitFault s (chOf c) k obj.toNat rsv) (.wait obj.toNat (gReg k gi.toNat).toNat mode)
    (4 * 2 ^ 28 + obj.toNat * 2 ^ 16 + gi.toNat * 2 ^ 12 + b2n mode * 2 ^ 11))

/-- SIGNAL (R172). -/
def execSignal (c : CoreId) (obj : BitVec 12) (inc : BitVec 16) (s : State) : Host.Outcome State Fault Refusal :=
  .next (xIssue s c (signalFault s (chOf c) (startCore s c) obj.toNat inc.toNat) (.signal obj.toNat inc.toNat)
    (5 * 2 ^ 28 + obj.toNat * 2 ^ 16 + inc.toNat))

/-- COUPLE (R155, R154). -/
def execCouple (c : CoreId) (conn : BitVec 6) (rsv : BitVec 22) (s : State) : Host.Outcome State Fault Refusal :=
  .next (xIssue s c (coupleFault (startCore s c) conn.toNat rsv) (.couple conn.toNat) (6 * 2 ^ 28 + conn.toNat * 2 ^ 22))

/-- UNCOUPLE (R156, R154). -/
def execUncouple (c : CoreId) (conn : BitVec 6) (rsv : BitVec 22) (s : State) : Host.Outcome State Fault Refusal :=
  .next (xIssue s c (coupleFault (startCore s c) conn.toNat rsv) (.uncouple conn.toNat) (7 * 2 ^ 28 + conn.toNat * 2 ^ 22))

/-- X_HEAD_RELEASE (R48, R162): a held head executes once what it waits for is present. -/
def execXHeadRelease (c : CoreId) (s : State) : Host.Outcome State Fault Refusal :=
  .next (xRunOnce (xFinish s c) c)

/-! ### Arrivals: what is refused, and how -/

/-- The items due at a core, of the types named: those of the die in ascending sender, then the others in arrival order (R159, R160). -/
def dueAt (k : Channel) (n : Nat) (p : Msg → Bool) : List MsgFly :=
  let l := k.msgFly.filter fun f => decide (f.due ≤ k.cycles) && decide (inCh (addrCore f.msg.dst) = n) && p f.msg
  ((l.filter (·.same)).mergeSort fun a b => decide (a.msg.src ≤ b.msg.src)) ++ l.filter fun f => !f.same

/-- A channel without the items of a core that are taken. -/
def dropFly (fs : List MsgFly) (k : Channel) : Channel :=
  { k with msgFly := k.msgFly.filter fun f => !fs.contains f }

/-- A message or marker refused: type 3 FULL, 4 CLOSED; the control node is told by MSG_STATUS (R160, R344). -/
def refuseMsg (s : State) (ch n : Nat) (type : Nat) (m : Msg) : State :=
  if m.fromNode then dataAnswer s 7 (if type = 3 then 0x41 else 0x42) m.entry m.seq []
  else sendMsg s ch (slotNumber s ch (some n)) (refusalOf type m)

/-- A core takes messages (R160): its task has neither ended nor left, and its queues are not shut. -/
def takesMsgs (k : Channel) (c : Core) (qn : Nat) : Bool :=
  decide (k.st = .serving) && (coreLive c || decide (c.status = .halted)) && !(queueOf c qn).shut

/-- The coupling record a data message matches, whose receive end is open (R154, R160). -/
def couplingFor (c : Core) (m : Msg) : Option Coupling :=
  c.coupl.find? fun r => r.src == m.src && r.entry == m.entry && r.gen == m.gen && r.queue == m.queue &&
    (connOf c r.via).any (·.isOpen)

/-- A SEQ that equals the last accepted or precedes it within 32,768 (R313). -/
def isRepeat (r : Coupling) (seq : Nat) : Bool :=
  r.last.any fun l => decide ((l + 65536 - seq) % 65536 ≤ 32768)

/-- The record notes the SEQ accepted. -/
def noteSeq (r : Coupling) (seq : Nat) (c : Core) : Core :=
  { c with coupl := c.coupl.map fun x => if x = r then { x with last := some seq } else x }

/-- 512-byte units of a message. -/
def unitsOf (m : Msg) : Nat :=
  m.payload.length / 512

/-- The slots of a queue that are occupied: a message being read frees its slot in the cycle of the read (R162). -/
def slotsUsed (k : Channel) (q : Queue) : Nat :=
  q.msgs.length + (if q.reading.any fun r => decide (schedNow k < r.2) then 1 else 0)

/-- A message sent on the die of its receiver (Table 7.2: device and channel agree). -/
def fromDie (m : Msg) : Bool :=
  !m.fromNode && m.src / 128 == m.dst / 128

/-- The units of other senders that have not entered a store by a cycle wait behind `n` units of the die (R159). -/
def putBack (now n : Nat) (c : Core) : Core :=
  let late : Nat → Msg → Nat := fun t m => if now ≤ t ∧ !fromDie m then t + n else t
  { c with
    rxFree := max c.rxFree now + n
    queues := tabMap c.queues fun _ q => { q with
      msgs := q.msgs.map fun x => (late x.1 x.2, x.2)
      slots := tabMap q.slots fun _ h => { h with wait := h.wait.map fun w => { w with entered := late w.entered w.msg } } } }

/-- The turns of the messages of the die due at a store (R159): one 512-B unit a cycle in ascending sender, ahead of the units of other
senders; the units, and the cycle in which the last enters. -/
def storeTurns (s : State) (ch n : Nat) : State × Nat × Nat :=
  let k := getCh s ch
  let fs := (dueAt k n fun m => m.type == 0).filter fun f => f.same && f.enters.isNone
  let start := max k.cycles (coreOf k n).rxDie
  let upTo := fun (f : MsgFly) => start + ((fs.takeWhile (· != f)).map fun g => unitsOf g.msg).sum + unitsOf f.msg - 1
  let units := (fs.map fun f => unitsOf f.msg).sum
  if fs = [] then (s, 0, 0)
  else (updCh s ch fun k => updCoreOf
      { k with msgFly := k.msgFly.map fun f => if fs.contains f then { f with enters := some (upTo f) } else f } n
      fun c => { putBack k.cycles units c with rxDie := start + units }, units, start + units - 1)

/-- When a message's last unit enters, and from when the store is free for other senders' (R159): one of the die at its turn, one from
elsewhere one unit a cycle in arrival order. -/
def entryCycle (k : Channel) (c : Core) (f : MsgFly) : Nat × Nat :=
  match f.enters with
  | some t => (t, c.rxFree)
  | none =>
    let start := max k.cycles c.rxFree
    (start + unitsOf f.msg - 1, start + unitsOf f.msg)

/-- A data message decided at an ordinary queue (R160, R313, R344). -/
def acceptMsg (ch n : Nat) (s : State) (f : MsgFly) : State :=
  let k := getCh s ch
  let c := coreOf k n
  let m := f.msg
  let room := (endOf c m.queue).any fun e => decide (slotsUsed k (queueOf c m.queue) < e.depth + 1)
  let t := entryCycle k c f
  let put := fun (c : Core) => updQueue m.queue (fun q => { q with msgs := q.msgs ++ [(t.1, m)] }) { c with rxFree := t.2 }
  if !takesMsgs k c m.queue then refuseMsg s ch n 4 m
  else if m.fromNode then
    if !(endsOf c m.queue).any fun e => e.role == 1 && e.peerk && e.isOpen then refuseMsg s ch n 4 m
    else if !room then refuseMsg s ch n 3 m
    else dataAnswer (updCh s ch fun k => updCoreOf k n put) 7 0x00 m.entry m.seq []
  else match couplingFor c m with
    | none => refuseMsg s ch n 4 m
    | some r =>
      if isRepeat r m.seq then s
      else if !room then refuseMsg s ch n 3 m
      else updCh s ch fun k => updCoreOf k n fun c => put (noteSeq r m.seq c)

/-- Messages of the die that enter one store together (R159): they take their turns, and in a schedule cycle each sender raises cause 0x06 for
the cycles in which units still enter after it. -/
def storeBrake (s : State) (ch n : Nat) : State :=
  let k := getCh s ch
  let fs := (dueAt k n fun m => m.type == 0).filter fun f => f.same && f.enters.isNone
  let r := storeTurns s ch n
  if r.2.2 ≤ k.cycles ∨ brakeNow k then r.1
  else fs.foldl (fun s f => raiseCause s ch k.sched ⟨6, inCh (addrCore f.msg.src), 0, .cycles (r.2.2 - k.cycles)⟩) r.1

/-- MESSAGE_ARRIVAL (R159, R160): the data messages whose first unit reaches a core's receive store in this cycle. -/
def execMessageArrival (c : CoreId) (s : State) : Host.Outcome State Fault Refusal :=
  let ch := chOf c
  let n := inCh c
  let s := storeBrake s ch n
  let fs := dueAt (getCh s ch) n fun m => m.type == 0 && !isHopper (getCore s c) m.queue
  .next (fs.foldl (acceptMsg ch n) (updCh s ch (dropFly fs)))

/-! ### Markers and refusals -/

/-- A sender belongs to the job of a core (R154): by its own channel's core, or by the job's placement. -/
def sameJob (s : State) (c : Core) (src : Nat) : Bool :=
  if addrHere s src then
    let k := getCh s (chOf (addrCore src))
    let x := coreOf k (inCh (addrCore src))
    x.status != .noTask && x.job == c.job
  else (getJob s c.job).chans.contains (src / 512, src / 128 % 4)

/-- The receive end that admits a coupling (R154, R155). -/
def admitting (s : State) (c : Core) (m : Msg) : Option Nat :=
  if !sameJob s c m.src then none
  else (c.conns.find? fun e => e.2.role != 0 && e.2.queue == m.queue && !e.2.peerk && e.2.isOpen && (e.2.any || peerOf e.2 == m.src)).map (·.1)

/-- A COUPLE marker decided (R155, R160). -/
def takeCouple (ch n : Nat) (s : State) (f : MsgFly) : State :=
  let k := getCh s ch
  let c := coreOf k n
  let m := f.msg
  match admitting s c m with
  | none => refuseMsg s ch n 4 m
  | some via =>
    if !takesMsgs k c m.queue ∨ 512 ≤ c.coupl.length then refuseMsg s ch n 4 m
    else updCh s ch fun k => updCoreOf k n fun c => { c with coupl := c.coupl ++ [⟨m.src, m.entry, m.gen, m.queue, via, none⟩] }

/-- COUPLE_MARKER_ARRIVAL (R155). -/
def execCoupleMarkerArrival (c : CoreId) (s : State) : Host.Outcome State Fault Refusal :=
  let ch := chOf c
  let n := inCh c
  let fs := dueAt (getCh s ch) n fun m => m.type == 1
  .next (fs.foldl (takeCouple ch n) (updCh s ch (dropFly fs)))

/-- UNCOUPLE_MARKER_ARRIVAL (R156): the handle's record is deleted. -/
def execUncoupleMarkerArrival (c : CoreId) (s : State) : Host.Outcome State Fault Refusal :=
  let ch := chOf c
  let n := inCh c
  let fs := dueAt (getCh s ch) n fun m => m.type == 2
  .next (fs.foldl (fun s f => updCh s ch fun k => updCoreOf k n fun c => { c with coupl := c.coupl.filter fun r =>
    !(r.src == f.msg.src && r.entry == f.msg.entry && r.gen == f.msg.gen) }) (updCh s ch (dropFly fs)))

/-- The send or couple a refusal names (R160). -/
def refusedOrigin (c : Core) (same : Bool) (m : Msg) : Origin :=
  if same then m.org
  else (tabFind c.sends (sendKey m.entry m.seq)).getD ((tabFind c.sends (sendKey (64 + m.entry) 0)).getD ⟨0, 0, 6, 0, 0⟩)

/-- One refusal at its sender (R156, R160): a strict end halts; a lenient end counts it, and a CLOSED one closes the end. -/
def takeRefusal (c : CoreId) (s : State) (f : MsgFly) : State :=
  let m := f.msg
  let x := getCore s c
  match connOf x m.entry with
  | none => s
  | some e =>
    if e.strict then haltOrigin s c (refusedOrigin x f.same m) (if m.type = 3 then 0x41 else 0x42)
    else
      let s := updCore s c (ecrBump 0x3C5 (if m.type = 3 then 0 else 16))
      if m.type = 4 ∧ e.gen = m.gen then updCore s c (updConn m.entry fun e => { e with isOpen := false, refused := e.isOpen || e.refused })
      else s

/-- REFUSAL_ARRIVAL (R160). -/
def execRefusalArrival (c : CoreId) (s : State) : Host.Outcome State Fault Refusal :=
  let ch := chOf c
  let n := inCh c
  let fs := dueAt (getCh s ch) n fun m => m.type == 3 || m.type == 4
  .next (fs.foldl (takeRefusal c) (updCh s ch (dropFly fs)))

/-! ### The hopper (R166-R169) -/

/-- The origin of a condition that another core's message raises at this one: the row word that issues next (R166). -/
def nextOrigin (k : Core) : Origin :=
  ⟨k.pc, k.sched, 6, 0, k.step⟩

/-- A contribution folds directly from the store's input (R168): it is next, or the fold before it ends in this cycle. -/
def foldsDirect (now : Nat) (x : HSlot) (sidx : Nat) : Bool :=
  if sidx = x.folded then true
  else decide (sidx = x.folded + 1) && x.wait.any fun w =>
    w.msg.sidx == x.folded && decide (w.entered < now) && decide (unitsOf w.msg ≤ x.units + 1)

/-- The pending buffers of a slot in use: those whose turn has not come (R168). -/
def buffersUsed (x : HSlot) : Nat :=
  (x.wait.filter fun w => w.buffered && w.msg.sidx != x.folded).length

/-- A contribution whose digest does not match (R169): discarded, CHECK set, a signature and a revoke, or a halt at the second. -/
def digestMiss (s : State) (c : CoreId) (m : Msg) (got : Nat) : State :=
  let o := nextOrigin (getCore s c)
  checkFailed (raiseFlags s c 0x3C8 0 o false false false true) c
    ⟨4, o, m.digest.getD 0, got, [], 0, m.payload, []⟩ 0x4A false

/-- A contribution decided at its hopper slot (R160, R166, R168, R169): until the slot's read it stands in the round read, with every
sender seen; `corrupt` is what a hardware error flips in the digest received. -/
def takeContribution (c : CoreId) (sc : State × Nat) (f : MsgFly) : State × Nat :=
  let (s, corrupt) := sc
  let ch := chOf c
  let n := inCh c
  let k := getCh s ch
  let x := getCore s c
  let m := f.msg
  match endOf x m.queue, couplingFor x m with
  | some e, some r =>
    let q := queueOf x m.queue
    let i := m.seq % (e.depth + 1)
    let h := hslotOf q i
    let reading := q.reading.any fun p => p.1 == i && decide (schedNow k < p.2)
    let full := (refuseMsg s ch n 3 m, corrupt)
    let bad := (haltForeign s c 6 0x4B, corrupt)
    let again := (haltForeign s c 6 0x49, corrupt)
    let got := (msgDigest m.payload) ^^^ corrupt
    if !takesMsgs k x m.queue ∨ m.fromNode then (refuseMsg s ch n 4 m, corrupt)
    else if isRepeat r m.seq then sc
    else if reading ∧ (m.seq + e.depth + 1) % 65536 = h.expect then (if e.hcount < m.sidx then bad else again)
    else if reading ∧ m.seq = h.expect then full
    else if m.seq ≠ h.expect then
      if m.seq = (h.expect + e.depth + 1) % 65536 ∧ h.seen ≠ [] ∧ !reading then full else (refuseMsg s ch n 4 m, corrupt)
    else if e.hcount < m.sidx then bad
    else if h.seen.contains m.sidx then again
    else if !foldsDirect k.cycles h m.sidx ∧ e.hpend ≤ buffersUsed h then full
    else if e.digest ∧ m.digest.isSome ∧ m.digest ≠ some got then (digestMiss s c m got, 0)
    else
      let t := entryCycle k x f
      let w : Contrib := ⟨t.1, !foldsDirect k.cycles h m.sidx, m⟩
      (updCore s c fun x => updQueue m.queue (fun q => { q with slots := tabSet q.slots i { h with
        seen := h.seen ++ [m.sidx]
        wait := h.wait ++ [w]
        digs := match m.digest with
          | some d => h.digs ++ [(m.sidx, d)]
          | none => h.digs } }) { noteSeq r m.seq x with rxFree := t.2 }, 0)
  | _, _ => (refuseMsg s ch n 4 m, corrupt)

/-- HOPPER_CONTRIBUTION (R166, R168, R169): the contributions whose first unit reaches a core's hopper queues in this cycle. -/
def execHopperContribution (c : CoreId) (corrupt : BitVec 61) (s : State) : Host.Outcome State Fault Refusal :=
  let ch := chOf c
  let n := inCh c
  let s := storeBrake s ch n
  let fs := dueAt (getCh s ch) n fun m => m.type == 0 && isHopper (getCore s c) m.queue
  .next (fs.foldl (takeContribution c) (updCh s ch (dropFly fs), corrupt.toNat)).1

/-- One image of a contribution combined with the running one (R71, R167): the image, and EXP_RANGE. Where no running image stands, a
zero one that carries the combination count so far stands in, with this one's EBASE. -/
def foldImage (folded : Nat) (a : Option ExImg) (b : Option ExImg) : Option ExImg × Bool :=
  match a, b with
  | none, none => (none, false)
  | some a, none => let r := imageAdd a (zeroImage 0 a.ebase); (some r.1, r.2)
  | none, some b => if folded = 0 then (some b, false) else let r := imageAdd (zeroImage (folded - 1) b.ebase) b; (some r.1, r.2)
  | some a, some b => let r := imageAdd a b; (some r.1, r.2)

/-- The i-th 32 bytes of a string, where it reaches so far. -/
def imageAt (bs : List Byte) (i : Nat) : Option ExImg :=
  if 32 * i < bs.length then some (imageRaw (slice bs (32 * i) 32)) else none

/-- A fold's new bytes and flags: SAT, EXP_RANGE, NAN. -/
structure Folded where
  bytes : List Byte
  sat   : Bool
  expr  : Bool
  nan   : Bool
deriving DecidableEq, Repr

/-- Elements `lo` to `lo + n − 1` of a slot folded with those of a contribution; the sum grows where it must (R167). -/
def foldImages (folded lo n : Nat) (sum pay : List Byte) : Folded :=
  let rs := (List.range n).map fun i => foldImage folded (imageAt sum (lo + i)) (imageAt pay (lo + i))
  ⟨sum.take (32 * lo) ++ rs.flatMap (fun r => (r.1.map imageBytes).getD []) ++ sum.drop (32 * (lo + n)), false, rs.any (·.2), false⟩

/-- FP32 elements `lo` to `lo + n − 1` folded from +0 on (R167, R73). -/
def foldFloats (lo n : Nat) (sum pay : List Byte) : Folded :=
  let el := fun (bs : List Byte) i => BitVec.ofNat 32 (fld bs (4 * i) 4)
  let rs := (List.range n).map fun i => fastAdd (el sum (lo + i)) (el pay (lo + i))
  ⟨padTo (4 * lo) sum ++ rs.flatMap (fun r => leBytes 4 r.bits) ++ sum.drop (4 * (lo + n)), rs.any (·.sat), false, rs.any (·.nan)⟩

/-- One 512-byte unit of the next contribution of a slot folded in cycle `now`; with its last unit the elements beyond it, which are
zeros (R167, R168). -/
def foldUnit (now : Nat) (e : Conn) (x : HSlot) : HSlot × Folded :=
  match x.wait.find? fun w => w.msg.sidx == x.folded && decide (w.entered < now) with
  | none => (x, ⟨[], false, false, false⟩)
  | some w =>
    let isLast := decide (unitsOf w.msg ≤ x.units + 1)
    let total := sizeBytes e.size / 512
    let n := if isLast then total - x.units else 1
    let r := if e.harith = 0 then foldImages x.folded (16 * x.units) (16 * n) x.sum w.msg.payload
             else foldFloats (128 * x.units) (128 * n) x.sum w.msg.payload
    let y := { x with sum := r.bytes, units := x.units + 1 }
    (if isLast then { y with
      units := 0
      folded := x.folded + 1
      wait := x.wait.erase w
      ready := if x.folded = e.hcount then some now else none } else y, r)

/-- One slot of a core's hopper queue folds. -/
def foldSlot (c : CoreId) (qn i : Nat) (s : State) : State :=
  let now := (getCh s (chOf c)).cycles
  let x := getCore s c
  match endOf x qn with
  | none => s
  | some e =>
    let r := foldUnit now e (hslotOf (queueOf x qn) i)
    let s := updCore s c (updQueue qn fun q => { q with slots := tabSet q.slots i r.1 })
    raiseFlags s c 0x3C8 0 (nextOrigin x) r.2.sat r.2.expr r.2.nan false

/-- HOPPER_FOLD (R167, R168): in each slot one unit of the contribution whose turn it is. -/
def execHopperFold (c : CoreId) (s : State) : Host.Outcome State Fault Refusal :=
  let x := getCore s c
  let slots := x.queues.flatMap fun q => (q.2.slots.filter fun h => h.2.wait != []).map fun h => (q.1, h.1)
  .next (slots.foldl (fun s p => foldSlot c p.1 p.2 s) s)

end Sys2Proof.Machine
end

