-- ==== Sys2Proof/Machine/Sync.lean ====
section
/-! DEFINITION. Sync: synchronisation objects at their homes (R170-R173), signal frames and watches (R174, R346), launch copies and their
restoring (R175), and the dump (R176). -/

namespace Sys2Proof.Machine

/-- An object at reset: zero, granted to no job (R170). -/
def SyncObj.reset : SyncObj :=
  { ctr := 0, job := none, first := none, copy := 0, signals := [] }

/-- A synchronisation object of a channel. -/
def objOf (k : Channel) (n : Nat) : SyncObj :=
  tabGet k.objs SyncObj.reset n

/-- A synchronisation object changed. -/
def updObj (s : State) (ch n : Nat) (f : SyncObj → SyncObj) : State :=
  updCh s ch fun k => { k with objs := tabUpd k.objs SyncObj.reset n f }

/-- The step in which a signal is applied (R283): 0 before the first launch; once the record of a step is formed, the next. -/
def stepNow (k : Channel) (j : Nat) : Nat :=
  max ((jobOf k j).step.getD 0) (jobOf k j).gotCommit

/-! ### A home's cycle (R173) -/

/-- Why a signal frame has no effect (R174, R346): 1 not granted, 3 another job's, 4 increment zero, 2 overflow. -/
def frameCause (s : State) (o : SyncObj) (inc jb : Nat) : Option Nat :=
  match o.job with
  | none => some 1
  | some j =>
    if !((getJob s j).st == .loaded || (getJob s j).st == .running) then some 1
    else if j ≠ jb then some 3
    else if inc = 0 then some 4
    else if 2 ^ 32 ≤ o.ctr + inc then some 2
    else none

/-- A signal frame applied or reported. -/
def frameApply (ch n : Nat) (s : State) (f : Nat × Nat × Nat) : State :=
  let o := objOf (getCh s ch) n
  let inc := f.2.1
  match frameCause s o inc f.2.2 with
  | some c => chEvent s ch 0x0030 f.2.2 (leBytes 2 n ++ leBytes 1 c)
  | none =>
    let s := updObj s ch n fun o => { o with ctr := o.ctr + inc, signals := o.signals ++ [inc] }
    noteInput s ch f.2.2 (stepNow (getCh s ch) f.2.2) (ioEntry 2 n inc [])

/-- A core's signal at the home (R172). -/
def signalApply (ch n : Nat) (s : State) (f : SyncFly) : State :=
  match f.kind with
  | .signal inc =>
    if 2 ^ 32 ≤ (objOf (getCh s ch) n).ctr + inc then haltOrigin s (mkCore ch f.core) f.org 0x63
    else updObj s ch n fun o => { o with ctr := o.ctr + inc }
  | _ => s

/-- A pending wait tested at the home (R172): satisfied, its release sets out. -/
def waitTry (ch n : Nat) (s : State) (f : SyncFly) : State :=
  match f.kind with
  | .wait thr mode =>
    if thr ≤ (objOf (getCh s ch) n).ctr then
      let s := if mode then updObj s ch n fun o => { o with ctr := o.ctr - thr } else s
      updCh s ch fun k => { k with
        waits := k.waits.erase f
        syncFly := k.syncFly ++ [⟨k.cycles + 16, n, f.core, .free, f.org⟩] }
    else s
  | _ => s

/-- A watch of a channel tested (R174): armed on the object and met, it fires and disarms. -/
def watchTry (ch n : Nat) (s : State) (w : Nat) : State :=
  let i := 0x510 + w
  let ctr := (objOf (getCh s ch) n).ctr
  if cGet s ch i 3 = 1 ∧ cGet s ch i 1 = n ∧ cGet s ch i 2 ≤ ctr then
    let s := cSet (cSet s ch i 3 0) ch i 4 (getCh s ch).ft
    chEvent s ch 0x0031 (((objOf (getCh s ch) n).job).getD 0xFFFF) (leBytes 1 w ++ zeros 1 ++ leBytes 2 n ++ leBytes 4 ctr)
  else s

/-- The synchronisation items of an object due by a cycle, in ascending core. -/
def syncDue (k : Channel) (n now : Nat) (p : SyncMsg → Bool) : List SyncFly :=
  (k.syncFly.filter fun f => f.obj == n && decide (f.due ≤ now) && p f.kind).mergeSort fun a b => decide (a.core ≤ b.core)

/-- A signal of a core. -/
def SyncMsg.isSignal : SyncMsg → Bool
  | .signal _ => true
  | _ => false

/-- A wait's request. -/
def SyncMsg.isWait : SyncMsg → Bool
  | .wait _ _ => true
  | _ => false

/-- The control-node signals that wait at a home applied: in a schedule cycle, in arrival order (R173, R174). -/
def homeFrames (s : State) (ch n : Nat) : State :=
  let k := getCh s ch
  if brakeNow k then s
  else (k.frames.filter fun f => f.1 == n).foldl (frameApply ch n) (updCh s ch fun k => { k with frames := k.frames.filter fun f => f.1 != n })

/-- What reached a home by one cycle: core signals, then waits (R173). -/
def homeTurn (ch n : Nat) (s : State) (now : Nat) : State :=
  let sg := syncDue (getCh s ch) n now SyncMsg.isSignal
  let ws := syncDue (getCh s ch) n now SyncMsg.isWait
  let s := updCh s ch fun k => { k with
    syncFly := k.syncFly.filter fun f => !(sg.contains f || ws.contains f)
    waits := k.waits ++ ws }
  let s := sg.foldl (signalApply ch n) s
  let pend := ((getCh s ch).waits.filter fun f => f.obj == n).mergeSort fun a b => decide (a.core ≤ b.core)
  pend.foldl (waitTry ch n) s

/-- An object's home is on its way to another position (R272, R273): what reaches it waits for the move's end. -/
def homeMoves (k : Channel) (n : Nat) : Bool :=
  decide ((coreOf k (n / 32)).grip = .seized)

/-- The cycles in which what now waits at a home reached it, in order: the present one alone, but after a move (R273). -/
def homeTurns (k : Channel) (n : Nat) : List Nat :=
  ((((k.syncFly.filter fun f => f.obj == n && f.kind != .free && decide (f.due < k.cycles)).map (·.due)).dedup.mergeSort
    fun a b => decide (a ≤ b)) ++ [k.cycles])

/-- One cycle of an object's home (R173): control-node signals in a schedule cycle (R174), core signals, waits, watches. -/
def homeCycle (s : State) (ch n : Nat) : State :=
  if homeMoves (getCh s ch) n then s
  else (List.range 32).foldl (watchTry ch n) ((homeTurns (getCh s ch) n).foldl (homeTurn ch n) (homeFrames s ch n))

/-- SIGNAL_ARRIVAL (R172, R173). -/
def execSignalArrival (ch : ChId) (obj : BitVec 12) (s : State) : Host.Outcome State Fault Refusal :=
  .next (homeCycle s ch.toNat obj.toNat)

/-- WAIT_TEST (R172, R173). -/
def execWaitTest (ch : ChId) (obj : BitVec 12) (s : State) : Host.Outcome State Fault Refusal :=
  .next (homeCycle s ch.toNat obj.toNat)

/-- SIGNAL_FRAME (R174, R346): the frame reaches the home, where it is applied in the first schedule cycle after; one that can have no
effect in a channel that is not Serving is reported at once. -/
def execSignalFrame (ch : ChId) (obj : BitVec 12) (inc : Word) (jb : BitVec 16) (s : State) : Host.Outcome State Fault Refusal :=
  let n := ch.toNat
  let f := (obj.toNat, inc.toNat, jb.toNat)
  if (getCh s n).st ≠ .serving ∧ (frameCause s (objOf (getCh s n) f.1) f.2.1 f.2.2).isSome then .next (frameApply n f.1 s f)
  else .next (updCh s n fun k => { k with frames := k.frames ++ [f] })

/-- A release at its core (R172): the head leaves the queue, where it is the wait that was released. -/
def waitFreed (fs : List SyncFly) (x : Core) : Core :=
  match x.xq with
  | ⟨.wait _ _ _, true, o⟩ :: r => if fs.any fun f => f.org == o then { x with xq := r, xHeld := false } else x
  | _ => x

/-- WAIT_RELEASE_ARRIVAL (R172): the releases that reach a core in this cycle. -/
def execWaitReleaseArrival (c : CoreId) (s : State) : Host.Outcome State Fault Refusal :=
  let ch := chOf c
  let due : SyncFly → Bool := fun f => f.kind == .free && f.core == inCh c && decide (f.due ≤ (getCh s ch).cycles)
  let fs := (getCh s ch).syncFly.filter due
  if fs = [] then .next s
  else .next (updCore (updCh s ch fun k => { k with syncFly := k.syncFly.filter fun f => !due f }) c (waitFreed fs))

/-! ### Launch copies (R175) -/

/-- At a launch each object of the job is copied; at the first, its value is kept for the job's end. -/
def copyObjs (s : State) (ch j : Nat) : State :=
  let f : SyncObj → SyncObj := fun o =>
    if o.job = some j then { o with copy := o.ctr, first := some (o.first.getD o.ctr), signals := [] } else o
  updCh s ch fun k => { k with objs := tabMap k.objs fun _ o => f o }

/-- On a revoke each object returns to its copy, and the step's control-node signals are applied again in order. -/
def restoreObjs (s : State) (ch j : Nat) : State :=
  let f : SyncObj → SyncObj := fun o =>
    if o.job = some j then { o with ctr := o.signals.foldl (· + ·) o.copy } else o
  updCh s ch fun k => { k with objs := tabMap k.objs fun _ o => f o }

/-! ### Grants and dumps (R171, R176) -/

/-- Any object of a range is granted to a running job, those homed at a position that is being seized left out (R171, R272). -/
def grantedToRunning (s : State) (ch lo count : Nat) : Bool :=
  (getCh s ch).objs.any fun e => decide (lo ≤ e.1 ∧ e.1 < lo + count) && decide ((coreOf (getCh s ch) (e.1 / 32)).grip = .free) &&
    e.2.job.any fun j => decide ((getJob s j).st = .running)

/-- An object granted anew, its counter as it stands. -/
def grantObj (j : Nat) (o : SyncObj) : SyncObj :=
  { o with job := if j = 0xFFFF then none else some j, first := none, copy := o.ctr, signals := [] }

/-- SYNC_GRANT_APPLY (R171). -/
def execSyncGrantApply (q : Req) (ch : ChId) (v : Byte) (s : State) : Host.Outcome State Fault Refusal :=
  let n := ch.toNat
  .next (onTrue s q (cIdx n 0x501) 4 v fun s =>
    let lo := cGet s n 0x501 1
    let count := cGet s n 0x501 2
    if count = 0 ∨ 4096 < lo + count then answer s q 0x09 []
    else if grantedToRunning s n lo count then answer s q 0x09 []
    else answer ((List.range count).foldl (fun s i => updObj s n (lo + i) (grantObj (cGet s n 0x501 3))) s) q 0x00 [])

/-- The eight bytes of an object in the dump (Table 7.6). -/
def dumpObj (s : State) (ch n : Nat) : List Byte :=
  let k := getCh s ch
  let o := objOf k n
  let waits := (k.waits.filter fun f => f.obj == n).length
  let armed := (List.range 32).any fun w => cGet s ch (0x510 + w) 3 == 1 && cGet s ch (0x510 + w) 1 == n
  leBytes 8 (o.ctr * 2 ^ 32 + o.job.getD 0xFFFF * 2 ^ 16 + min waits 255 * 2 ^ 8 + b2n armed * 2 ^ 7)

/-- The nine pages of a dump (Table 7.6). No rule takes one at a job stop, whose cause 2 the table lists (DESIGN CHOICE: assumption log,
102). -/
def takeDump (s : State) (ch cause : Nat) : State :=
  let k := getCh s ch
  let pages := (List.range 8).map fun p => (List.range 512).flatMap fun i => dumpObj s ch (512 * p + i)
  let granted := (k.objs.filter fun e => e.2.job.isSome).length
  let head := padTo 4096 (leBytes 8 k.ft ++ leBytes 2 granted ++ leBytes 1 ch ++ leBytes 1 cause ++ sm3 pages.flatten)
  updCh s ch fun k => { k with dump := head :: pages }

/-- SYNC_DUMP_TAKE (R176). -/
def execSyncDumpTake (q : Req) (ch : ChId) (v : Byte) (s : State) : Host.Outcome State Fault Refusal :=
  .next (onTrue s q (cIdx ch.toNat 0x502) 3 v fun s => answer (takeDump s ch.toNat 0) q 0x00 [])

/-- SYNC_WATCH_ARM (R174): true arms the watch, false disarms it. -/
def execSyncWatchArm (q : Req) (ch : ChId) (n : BitVec 5) (v : Byte) (s : State) : Host.Outcome State Fault Refusal :=
  let i := 0x510 + n.toNat
  .next (onWrite s q (cIdx ch.toNat i) 3 fun s =>
    if 1 < v.toNat then answer s q 0x05 [] else answer (cSet s ch.toNat i 3 v.toNat) q 0x00 [])

end Sys2Proof.Machine
end

