-- ==== Sys2Proof/Machine/Ecr.lean ====
section
/-! DEFINITION. Ecr: the engine control registers (R44, Tables 2.7, 4.6, 5.8, 6.4, 6.7, 7.8), mte and mfe. -/

namespace Sys2Proof.Machine

/-- A register that software writes. -/
def ecrWritable (a : Nat) : Bool :=
  [0x006, 0x100, 0x104, 0x105, 0x106, 0x107, 0x108, 0x10A, 0x10B, 0x200, 0x201, 0x202, 0x203, 0x204, 0x205, 0x208, 0x209, 0x300, 0x380,
    0x3C1, 0x3C3, 0x3C8].contains a

/-- A register that is read only. -/
def ecrReadOnly (a : Nat) : Bool :=
  [0x000, 0x001, 0x002, 0x003, 0x004, 0x005, 0x101, 0x10C, 0x20A, 0x301, 0x302, 0x381, 0x382, 0x383, 0x3C0, 0x3C2, 0x3C4, 0x3C5, 0x3C6,
    0x3C7, 0x3C9, 0x3CA, 0x3CB].contains a

/-- The registers of the step snapshot (Tables 2.7, 4.6, 5.8, 6.4, 6.7, 7.8). -/
def ecrSnapshot : List Nat :=
  [0x006, 0x100, 0x104, 0x105, 0x106, 0x107, 0x108, 0x10A, 0x10B, 0x200, 0x201, 0x202, 0x203, 0x204, 0x205, 0x208, 0x209, 0x300, 0x380,
    0x3C1, 0x3C3, 0x3C8]

/-- The bits of a written register that are not reserved. -/
def ecrMask (a : Nat) : Word :=
  match a with
  | 0x006 => 7
  | 0x100 => 0xFFFF
  | 0x104 => 0x3FF
  | 0x105 => 0x3FF
  | 0x106 => 0x3FF
  | 0x107 => 0x3FF
  | 0x108 => 3
  | 0x200 => 0xD
  | 0x201 => 0xFF
  | 0x202 => 0xFF
  | 0x203 => 0xFF
  | 0x204 => 0xFF
  | 0x205 => 0xFF
  | 0x300 => 0xFF
  | 0x380 => 0x1F
  | 0x3C1 => 0xF
  | 0x3C3 => 0xF
  | 0x3C8 => 0xF
  | _ => 0xFFFFFFFF

/-- The three registers whose flags a written 1 clears. -/
def ecrClears (a : Nat) : Bool :=
  decide (a = 0x100 ∨ a = 0x200 ∨ a = 0x3C8)

/-! ### Segment power (R138) -/

/-- Where the value written to SP_SEGPWR is staged until the next step row; its top bit says that one is. -/
def stagedPower : Nat := 0x700

/-- How a segment lies to the task's rows: holds one of them, holds none beyond them. -/
def segHolds (k : Core) (n : Nat) : Bool :=
  decide (64 * n < k.base + k.bound ∧ k.base < 64 * n + 64)

/-- A segment lies wholly within the task's rows. -/
def segWhole (k : Core) (n : Nat) : Bool :=
  decide (k.base ≤ 64 * n ∧ 64 * n + 64 ≤ k.base + k.bound)

/-- The segments wholly within the task's rows, as a mask. -/
def segMask (k : Core) : Nat :=
  ((List.range 8).map fun n => if segWhole k n then 2 ^ n else 0).sum

/-- A segment holds a slot of a ring with a descriptor. -/
def segRing (k : Core) (n : Nat) : Bool :=
  k.rings.any fun g => match g.2.desc with
    | none => false
    | some d =>
      let lo := k.base * 128 + d.region
      let hi := lo + d.slots * (slotBytes d / 32)
      decide (8192 * n < hi ∧ lo < 8192 * (n + 1))

/-- A written value powers down a segment that holds a ring's slot. -/
def powersRing (k : Core) (v : Word) : Bool :=
  (List.range 8).any fun n => segWhole k n && (ecrGet k 0x300).getLsbD n && !v.getLsbD n && segRing k n

/-- The code of a segment's state (Table 6.4). -/
def segCode (g : Seg) : Nat :=
  match g.st with
  | .off => 0
  | .shutdown => 1
  | .restarting => 2
  | .zeroing => 3
  | .on => 4

/-- SP_SEGSTAT. -/
def segStat (k : Core) : Nat :=
  ((List.range 8).map fun n =>
    (if !segHolds k n then 5 else if !segWhole k n then 4 else segCode (segOf k n)) * 2 ^ (3 * n)).sum

/-! ### Reads -/

/-- Slots of a remote ring checked and not yet due: they still count as ISSUED (R148). -/
def notYetDue (g : Ring) (d : Desc) (now : Nat) : Nat :=
  if d.kind = 2 then (g.slots.filter fun x => x.2.st == .due && decide (now < x.2.dueAt)).length else 0

/-- Slots of a ring in a state. -/
def countSt (g : Ring) (st : SlotSt) : Nat :=
  (g.slots.filter fun x => x.2.st == st).length

/-- ST_RSTAT (Table 6.7). A lead's slot that waits for its members' releases counts as DUE (DESIGN CHOICE: assumption log, 104). -/
def ringStat (g : Ring) (now : Nat) : Nat :=
  match g.desc with
  | none => 7
  | some d =>
    if d.kind = 1 then
      let u := uncredited g now
      (d.slots - u) * 2 ^ 17 + u * 2 ^ 10 + d.kind
    else
      let late := notYetDue g d now
      let iss := countSt g .issued + late
      let due := countSt g .due - late
      (d.slots - iss - due) * 2 ^ 17 + iss * 2 ^ 10 + due * 2 ^ 3 + d.kind

/-- ST_RPTR (Table 6.7). -/
def ringPtr (g : Ring) (now : Nat) : Nat :=
  match g.desc with
  | none => 0
  | some d =>
    let n := max 1 d.slots
    g.tail * 2 ^ 16 + (g.head + n - notYetDue g d now % n) % n * 2 ^ 8 + g.rel

/-- MS_QINFO (Table 7.8). -/
def queueInfo (k : Channel) (c : Core) (qn : Nat) : Nat :=
  match endOf c qn with
  | none => 0
  | some e =>
    let q := queueOf c qn
    let held := if e.role = 2 then (q.slots.filter fun h => before k h.2.ready).length
                else (q.msgs.filter fun m => decide (m.1 < k.cycles)).length
    2 ^ 31 + b2n e.strict * 2 ^ 30 + b2n (e.role == 2) * 2 ^ 29 + b2n (allClosed c qn) * 2 ^ 28 + held * 2 ^ 23 + e.depth * 2 ^ 19 +
      e.size * 2 ^ 16

/-- The open entries of the 32 from a number on. -/
def openMask (c : Core) (lo : Nat) : Nat :=
  ((List.range 32).map fun i => if (connOf c (lo + i)).any (·.isOpen) then 2 ^ i else 0).sum

/-- The multiplier's occupancy still to run (MX_MODE). -/
def occupancy (k : Channel) (c : Core) : Nat :=
  min 15 (c.busyTill - k.sched)

/-- An engine control register as a core reads it. -/
def ecrRead (k : Channel) (n : Nat) (id : CoreId) (c : Core) (a : Nat) : Word :=
  let w := fun (v : Nat) => BitVec.ofNat 32 v
  match a with
  | 0x000 => w ((posOf k n) * 2 ^ 9 + id.toNat)
  | 0x001 => w c.base
  | 0x002 => w c.bound
  | 0x003 => w c.pc
  | 0x004 => w ((List.range 4).map fun l => if (loopOf c l).active then 2 ^ l else 0).sum
  | 0x005 => w c.profile
  | 0x101 => w (occupancy k c * 2 ^ 8 + ((List.range 4).map fun j => if (groupOf c j).exact then 2 ^ j else 0).sum)
  | 0x301 => w (segStat c)
  | 0x381 => w (ringStat (ringOf c ((ecrGet c 0x380).toNat % 32)) k.sched)
  | 0x382 => w (ringPtr (ringOf c ((ecrGet c 0x380).toNat % 32)) k.sched)
  | 0x3C0 => w ((List.range 16).map fun q => if queueHolds k c q then 2 ^ q else 0).sum
  | 0x3C2 => w (queueInfo k c ((ecrGet c 0x3C1).toNat % 16))
  | 0x3C4 => w (match c.xLast with
      | some q => 16 + q
      | none => 0)
  | 0x3C6 => w (openMask c 0)
  | 0x3C7 => w (openMask c 32)
  | 0x3C9 => ecrGet c 0x500
  | 0x3CB => w (b2n c.xHeld * 16 + c.xq.length)
  | _ => ecrGet c a

/-! ### mte and mfe -/

/-- The conditions of an mte (R25, R44, R138, Tables 4.6, 5.8). -/
def mteFault (k : Core) (gi : BitVec 4) (addr : BitVec 10) (rsv : BitVec 12) : Option Nat :=
  let a := addr.toNat
  let v := gReg k gi.toNat
  firstFault [(rsv != 0, 0x08), (!ecrWritable a && !ecrReadOnly a, 0x0E), (ecrReadOnly a, 0x0F),
    (decide (a = 0x108) && v &&& 3 == 3, 0x04), (decide (0x201 ≤ a ∧ a ≤ 0x205) && decide (128 < v.toNat % 256), 0x05),
    (decide (a = 0x300) && powersRing k v, 0x26)]

/-- A register as an mte leaves it: flags cleared but for those set in this cycle (R99), a segment request staged (R138). -/
def ecrWritten (a : Nat) (v : Word) (c : Core) : Core :=
  let v := v &&& ecrMask a
  if ecrClears a then ecrSet a ((ecrGet c a &&& ~~~v) ||| ecrGet c (freshKey a)) c
  else if a = 0x300 then ecrSet stagedPower (v ||| 0x80000000) c
  else ecrSet a v c

/-- MTE (R44). -/
def execMte (c : CoreId) (gi : BitVec 4) (addr : BitVec 10) (rsv : BitVec 12) (s : State) : Host.Outcome State Fault Refusal :=
  let k := startCore s c
  .next (issue s c 1 (mteFault k gi addr rsv) fun s => updCore s c (ecrWritten addr.toNat (gReg k gi.toNat)))

/-- The conditions of an mfe (R25, R44). -/
def mfeFault (addr : BitVec 10) (rsv : BitVec 12) : Option Nat :=
  firstFault [(rsv != 0, 0x08), (!ecrWritable addr.toNat && !ecrReadOnly addr.toNat, 0x0E)]

/-- MFE (R44); a read of MS_HDIGL latches the digest's high half (R178). -/
def execMfe (c : CoreId) (gi : BitVec 4) (addr : BitVec 10) (rsv : BitVec 12) (s : State) : Host.Outcome State Fault Refusal :=
  let k := startCore s c
  .next (issue s c 1 (mfeFault addr rsv) fun s =>
    let v := ecrRead (getCh s (chOf c)) (inCh c) c k addr.toNat
    updCore s c fun x => setG gi.toNat v (if addr.toNat = 0x3C9 then ecrSet 0x3CA (ecrGet k 0x501) x else x))

/-! ### Segment requests at a step row (Table 6.3) -/

/-- A segment under a request made at a step row in schedule cycle `now`. A power-up that finds it ZEROING or RESTARTING with a power-down
pending takes that power-down back (DESIGN CHOICE: assumption log, 103). -/
def segRequest (now : Nat) (up : Bool) (g : Seg) : Seg :=
  if up then
    match g.st with
    | .off => ⟨.zeroing, now + 64, false⟩
    | .shutdown => ⟨.restarting, g.till, false⟩
    | _ => { g with down := false }
  else
    match g.st with
    | .on => ⟨.shutdown, now + 16, false⟩
    | .zeroing => { g with down := true }
    | .restarting => { g with down := true }
    | _ => g

/-- The staged request takes effect at a step row (R138); SP_SEGPWR then reads 0 in the bits that are ignored (DESIGN CHOICE: assumption
log, 103). -/
def applyPower (now : Nat) (c : Core) : Core :=
  let v := ecrGet c stagedPower
  if !v.getLsbD 31 then c
  else
    let segs := (List.range 8).filter (segWhole c)
    let val := BitVec.ofNat 32 (v.toNat % 256 &&& segMask c)
    let c := { c with ecr := tabDel c.ecr stagedPower }
    segs.foldl (fun c n => if val.getLsbD n = (ecrGet c 0x300).getLsbD n then c
      else { c with segs := tabSet c.segs n (segRequest now (val.getLsbD n) (segOf c n)) }) c |> ecrSet 0x300 val

end Sys2Proof.Machine
end

