-- ==== Sys2Proof/Machine/Steps.lean ====
section
/-! DEFINITION. Steps: the step row, launches and barrier starts (R36, R226, R227, R244, R254, R260), the pin point (R242), clearance
and commit (R258-R261, R282-R284), and the restore of a revoked step (R265, R269-R273). -/

namespace Sys2Proof.Machine

/-! ### Stream indices and pins (R242, R244) -/

/-- The stream index at a ring address (R242): that of the chunk its block holds. -/
def streamAt (c : Core) (a : Nat) : Nat :=
  256 * tabGet c.blocks 0 (a / 256) + a % 256

/-- The stream index of the row that follows the row at `last`. -/
def streamNext (c : Core) (last next : Nat) : Nat :=
  if next = (last + 1) % 4096 then streamAt c last + 1 else streamAt c next

/-- The first rows of the bodies of the active loops. -/
def activeStarts (c : Core) : List Nat :=
  ((List.range 4).filter fun l => (loopOf c l).active).map fun l => streamAt c (loopOf c l).start

/-- What the step that begins now pins (R242): the row it begins at and every loop active there. -/
def pinOf (c : Core) (idx : Nat) : Nat :=
  (activeStarts c).foldl min idx

/-- P of a core, whose oldest uncommitted step is given (R242). -/
def pinPoint (c : Core) (oldest : Nat) : Nat :=
  match c.pins.find? fun p => p.1 == oldest with
  | some p => max c.pin ((activeStarts c).foldl min p.2)
  | none => c.pin

/-- The pin point taken anew; a new multiple of 256 sends a ring-block-free event (R242). -/
def updatePin (s : State) (ch n : Nat) : State :=
  let k := getCh s ch
  let c := coreOf k n
  let p := pinPoint c (jobOf k c.job).committed
  let s := updCh s ch fun k => updCoreOf k n fun c => { c with pin := p }
  if p / 256 = c.pin / 256 then s else chEvent s ch 0x0023 c.job (leBytes 4 c.task ++ leBytes 4 (p / 256 + 15))

/-- The ring block of a chunk (START is 256 × b0). -/
def blockOf (c : Core) (chunk : Nat) : Nat :=
  (c.start / 256 + chunk) % 16

/-- The step-map entry of the step a core holds for: that of its newest copy. -/
def nextMap (c : Core) : Nat :=
  match c.snaps.getLast? with
  | some p => p.mapAt
  | none => 0

/-- Every chunk of the window of the step to come is in the ring (R244). -/
def windowLoaded (c : Core) : Bool :=
  match c.stepMap[nextMap c]? with
  | none => true
  | some e => (List.range (e.last / 256 + 1 - e.first / 256)).all fun i =>
      tabFind c.blocks (blockOf c (e.first / 256 + i)) == some (e.first / 256 + i)

/-! ### The step row -/

/-- The copies of R254 as the core stands, beginning a step at a ring address under a step-map entry. -/
def snapOf (c : Core) (step mapAt : Nat) : Snapshot :=
  { step := step, g := c.g, loops := c.loops, skips := c.skips, pc := c.pc, ecr := ecrSnapshot.map fun a => (a, ecrGet c a),
    rings := c.rings, conns := c.conns, coupl := c.coupl, rounds := tabMap c.queues fun _ q => tabMap q.slots fun _ h => h.expect
    nexts := tabMap c.queues fun _ q => q.next,
    sched := c.sched, rdig := c.rdig, mapAt := mapAt }

/-- A core after its step row (R36, R226, R254, R138): the row that follows is next, copies are taken, the core holds. -/
def stepRow (now : Nat) (c : Core) : Core :=
  let row := streamAt c c.pc
  let c' := seqNext (applyPower now c)
  let m := ((c'.stepMap.zipIdx.find? fun e => e.1.row == some row).map (·.2)).getD c'.curMap
  let c' := { c' with status := .holding, toLaunch := some (c.step + 1), pins := c'.pins ++ [(c.step + 1, pinOf c' (streamNext c c.pc c'.pc))] }
  { c' with snaps := c'.snaps ++ [snapOf c' (c.step + 1) m] }

/-- STEP (R36): with the X queue empty the core takes its copies and holds for its launch. -/
def execStep (c : CoreId) (rsv : BitVec 28) (s : State) : Host.Outcome State Fault Refusal :=
  .next (issue s c 0 (rsvFault rsv) fun s =>
    if (getCore s c).xq = [] then updCore s c (stepRow (getCh s (chOf c)).sched) else haltNow s c 0 0x65)

/-! ### Releases (R226, R227, R244, R260) -/

/-- A core released for a step: its first row word issues in the cycle to come. -/
def releaseCore (n : Nat) (c : Core) : Core :=
  if c.status = .holding ∧ c.toLaunch = some n ∧ windowLoaded c then
    { c with status := .running, toLaunch := none, step := n, launchAt := c.sched, curMap := nextMap c, stepFlags := 0, dumped := []
             failGen := none }
  else c

/-- A late release recorded (R226). -/
def lateLaunch (s : State) (ch j lag : Nat) : State :=
  if lag = 0 then s
  else chEvent (dSat (cSet s ch 0x104 1 (lag % 2 ^ 32)) (cIdx ch 0x104) 2 1) ch 0x0011 j (leBytes 4 lag)

/-- The settings record (Table 13.4). -/
def settingsRecord (s : State) (j : Nat) : List Byte :=
  leBytes 32 (dGet s (0x640 + j) 5) ++ leBytes 1 (getJob s j).profile ++ [1] ++ leBytes 1 (dGet s 0x600 2) ++ leBytes 1 (dGet s 0x600 3) ++ zeros 92

/-- The 256 seed values of a job, 0 for MODE 0. -/
def seedBytes (job : Job) : List Byte :=
  (List.range 256).flatMap fun n => leBytes 8 (((tabFind job.seeds n).map (·.value.toNat)).getD 0)

/-- The body of a JOB_START record (Table 13.5). -/
def jobStartBody (s : State) (j count : Nat) : List Byte :=
  let job := getJob s j
  leBytes 32 (dGet s (0x640 + j) 4) ++ sm3 job.settings ++ sm3 (job.latched.flatMap (·.2)) ++ leBytes 8 count ++ slice job.manifest 28 2 ++
    zeros 22 ++ seedBytes job ++ job.settings

/-- The first release of a step in the module (R238, R250): the count is consumed and handed to every channel; a first launch makes
the job RUNNING and is journalled. -/
def firstRelease (s : State) (j n count : Nat) : State :=
  if (getJob s j).released ≠ n then s
  else
    let s := updJob s j fun b => { b with released := n + 1, launch := 0 }
    let s := (jobHere (getJob s j)).foldl (fun s ch => updJobCh s ch j fun v => { v with launchFor := some (n, count) }) s
    if n ≠ 0 then s
    else
      let s := updJob s j fun b => { b with st := .running, settings := settingsRecord s j }
      jnlHand s ⟨1, 0xFF, jobTag s j, j, hubTime s, jobStartBody s j count, none⟩

/-- A revoke of the step now released that came before its release acts at once (R266): the cores stop before their first row word. -/
def actEarly (s : State) (ch j n : Nat) : State :=
  match (jobOf (getCh s ch) j).early with
  | some (m, gen, time) =>
    let s := updJobCh s ch j fun v => { v with early := none }
    if m = n then revokeAct s ch j n gen time true [] else s
  | none => s

/-- A channel releases a step of a job: staged map writes, launch copies, the cores (R213, R175, R226); `from_` is the launch count of the
step, or the release time of a barrier start (R315). -/
def releaseStep (s : State) (ch j n count from_ lag : Nat) : State :=
  let s := firstRelease s j n count
  let s := updJobCh s ch j fun v => { v with
    step := some n, missed := false, gen := 0, acted := 0, revoke := none, ftLaunch := from_, lag := lag
    brakeAt := cGet s ch 0x101 1, fsigs := 0, appends := [] }
  let s := lateLaunch (copyObjs (applyStaged s ch j) ch j) ch j lag
  actEarly (updJobCores s ch j fun _ c => releaseCore n c) ch j n

/-- The step a channel launches next, with its count (R226, R250); none while no count is written. -/
def launchNext (s : State) (ch j : Nat) : Option (Nat × Nat) :=
  let v := jobOf (getCh s ch) j
  let job := getJob s j
  let n := match v.step with
    | some m => m + 1
    | none => 0
  match v.launchFor with
  | some (m, t) => if m = n then some (n, t) else if job.released = n ∧ job.launch ≠ 0 then some (n, job.launch) else none
  | none => if job.released = n ∧ job.launch ≠ 0 then some (n, job.launch) else none

/-- A channel may release step n (R260). -/
def launchReady (s : State) (ch j n : Nat) : Bool :=
  let v := jobOf (getCh s ch) j
  v.revoke.isNone && decide (n ≤ v.gotCommit) && decide (n ≤ v.committed + 1) &&
    decide ((getJob s j).st = .loaded ∨ (getJob s j).st = .running) && decide ((getCh s ch).st = .serving)

/-- Every slot of a job's rings in a channel that holds an item holds it whole (R151). -/
def ringsLanded (k : Channel) (j : Nat) : Bool :=
  (jobCores k j).all fun n => (coreOf k n).rings.all fun g =>
    ((g.2.desc.map (·.kind)) == some 1) || g.2.slots.all fun x => x.2.st == .free || x.2.landed.isSome

/-- The replay of a restored step released (R265, R226): its objects and chunks are as the restore left them, map writes staged since are
applied (R213). -/
def releaseReplay (s : State) (ch j : Nat) (r : Revoke) : State :=
  let k := getCh s ch
  let v := jobOf k j
  let lag := if v.missed then k.ft - r.time else 0
  let s := updJobCh s ch j fun v => { v with
    missed := false, revoke := none, ftLaunch := r.time, lag := lag, brakeAt := cGet s ch 0x101 1 }
  updJobCores (lateLaunch (applyStaged s ch j) ch j lag) ch j fun _ c => releaseCore r.step c

/-- LAUNCH_RELEASE (R226, R244, R250, R260, R265): at a cycle boundary at or past the count, a channel releases what is ready. -/
def execLaunchRelease (ch : ChId) (j : JobSlot) (s : State) : Host.Outcome State Fault Refusal :=
  let n := ch.toNat
  let j := j.toNat
  let k := getCh s n
  let v := jobOf k j
  if !v.placed then .next s
  else match v.revoke with
    | some r =>
      if k.ft < r.time ∨ r.phase = .limited ∨ r.phase = .lost then .next s
      else if r.phase = .holding ∧ ringsLanded k j ∧ k.st = .serving then .next (releaseReplay s n j r)
      else .next (updJobCh s n j fun v => { v with missed := true })
    | none =>
      if (jobCores k j).any fun m => (coreOf k m).toLaunch = v.step ∧ v.step.isSome ∧
          (coreOf k m).status = .holding ∧ windowLoaded (coreOf k m) then
        let lag := k.ft - v.ftLaunch
        let s := updJobCh (lateLaunch s n j lag) n j fun v => { v with lag := max v.lag lag }
        .next (updJobCores s n j fun _ c => releaseCore (v.step.getD 0) c)
      else match launchNext s n j with
        | none => .next s
        | some (m, t) =>
          if k.ft < t then .next s
          else if launchReady s n j m then .next (releaseStep s n j m t t (if v.missed then k.ft - t else 0))
          else .next (updJobCh s n j fun v => { v with missed := true })

/-- BARRIER_START (R227): the countdown has run out, and every channel of the module releases step 0. -/
def execBarrierStart (j : JobSlot) (s : State) : Host.Outcome State Fault Refusal :=
  let j := j.toNat
  match (getJob s j).barrier with
  | none => .next s
  | some t =>
    if s.hub.time < t then .next s
    else
      let go := (getJob s j).st = .loaded
      let s := updJob s j fun b => { b with barrier := none }
      .next (if go then (jobHere (getJob s j)).foldl (fun s ch => releaseStep s ch j 0 0 (getCh s ch).ft 0) s else s)

/-! ### Clearance (R258, R278) -/

/-- Nothing that a core issued is still on its way to a destination that clearance waits for (R258); `now` is the channel cycle to come. -/
def coreSettled (now : Nat) (c : Core) : Bool :=
  decide (c.lPipe = [] ∧ c.mPipe = [] ∧ c.verdicts = [] ∧ c.drains = [] ∧ c.vPipe = [] ∧ c.stq = [] ∧ c.egress = [] ∧ c.putFly = []) &&
    c.rings.all fun g => g.2.puts.all fun p => p.doneAt.any fun d => decide (d < now)

/-- A core has issued the row that ends a step: its step row, or its done row. -/
def rowIssued (s : Nat) (c : Core) : Bool :=
  decide (c.toLaunch = some (s + 1)) || c.doneAt.isSome

/-- A contribution whose digest a hopper has still to check is on its way to a core of a job (R169). -/
def digestDue (k : Channel) (j : Nat) : Bool :=
  k.msgFly.any fun f =>
    let n := inCh (addrCore f.msg.dst)
    f.msg.type == 0 && f.msg.digest.isSome && (jobCores k j).contains n && isHopper (coreOf k n) f.msg.queue

/-- A channel may clear the step its job runs (R258). -/
def clearReady (k : Channel) (j : Nat) : Option Nat :=
  let v := jobOf k j
  match v.step with
  | none => none
  | some n =>
    if v.placed ∧ v.sentClear = n ∧ v.revoke = none ∧ !v.overflow ∧ !digestDue k j ∧
        (jobCores k j).all (fun m => rowIssued n (coreOf k m) && coreSettled k.cycles (coreOf k m)) then some n else none

/-- The channel's step digest formed and folded; every core digest returns to zero (R278), in the copies that begin a later step too. -/
def clearDigest (s : State) (ch j : Nat) : State :=
  let k := getCh s ch
  let on := decide (cGet s ch 0x706 2 ≠ 0) && decide (cGet s ch 0x706 3 = j)
  let d := slotDigest ((jobCores k j).map fun n => (coreOf k n).rdig)
  let zero : Nat → Core → Core := fun _ c => { c with rdig := 0, snaps := c.snaps.map fun p => if some p.step = c.toLaunch then { p with rdig := 0 } else p }
  updJobCores (updJobCh s ch j fun v => { v with stepDig := d, digWas := v.cumDig, cumDig := if on then digFold v.cumDig d else v.cumDig }) ch j zero

/-- A link control body of a job: the step, the revoke generation that the channel runs it in, the Fabric Time of sending (R258). -/
def stepCtl (s : State) (ch j step : Nat) : Lctl :=
  ⟨0, 0, BitVec.ofNat 32 (jobTag s j), BitVec.ofNat 64 step, BitVec.ofNat 16 (jobOf (getCh s ch) j).gen, 0, BitVec.ofNat 64 (getCh s ch).ft⟩

/-! ### Commit (R259, Table 12.1) -/

/-- MARK := TOP, or TOP := MARK, for the step-append entries a step wrote (R208). -/
def markAppends (k : Channel) (v : JobCh) (f : Nat → Nat) : Channel :=
  { k with famMap := v.appends.foldl (fun m n => tabSet m n (BitVec.ofNat 64 (f (tabGet m 0 n).toNat))) k.famMap }

/-- TOP returned to MARK (R208). -/
def resetTop (e : Nat) : Nat :=
  setTop e (bits e 9 9)

/-- The output entry of a siding entry (R284). -/
def outputEntry (x : Siding) : List Byte :=
  match x.msg with
  | some m => ioEntry 2 m.entry x.data.length x.data
  | none => ioEntry 1 x.faddr x.data.length x.data

/-- The MSG_OUT frame of a message at the siding (R345). -/
def msgOutFrame (s : State) (x : Siding) (m : Msg) : Frame :=
  ⟨1, tabGet s.hub.txCseq 0 1, 6, 0, x.job, BitVec.ofNat 64 x.step, leBytes 16 (msgHeader m) ++ x.data⟩

/-- The write that releases a durable put to a home elsewhere; `takers` names the core that issued it, `alt` its other copy. -/
def releaseWrite (x : Siding) (t : Target) : Request :=
  { tag := 0, core := none, takers := [x.core], ring := 0, slot := 0, seq := 0, order := 0, write := true, cseq := 0, rel := some x.step,
    job := x.job, asked := 0, len := x.data.length, parts := 0, got := [], home := t, alt := x.dests.find? fun o => o != t, notes := [], org := x.org }

/-- A durable put sent to one of its homes. -/
def releasePut (ch : Nat) (x : Siding) (s : State) (t : Target) : State :=
  if isOwn s ch t then
    (if rangeThere s ch t.tier t.addr x.data.length then tierPut s ch t.tier t.addr x.data else haltOrigin s (mkCore ch x.core) x.org 0x2A)
  else if !homeReach s ch t ∧ x.dests.any (fun o => o ≠ t ∧ homeReach s ch o) then staleEvent s ch x.job t
  else makeRequest s ch (releaseWrite x t) x.data

/-- A siding entry can leave (R256, R257): the host port takes a message, the channel's own CXL link is up for a put to it. -/
def canLeave (s : State) (ch : Nat) (x : Siding) : Bool :=
  match x.msg with
  | some m => (ahnPick s (msgOutFrame s x m)).isSome && !s.hub.out.any fun f => f.cls == 1
  | none => x.dests.all fun t => !isOwn s ch t || tierUp s ch t.tier

/-- A siding entry leaves. -/
def sidingLeave (s : State) (ch : Nat) (x : Siding) : State :=
  let s := updCh s ch fun k => { k with siding := k.siding.erase x, sideUsed := k.sideUsed - x.data.length }
  match x.msg with
  | some m => ahnSend s 1 6 0 x.job (BitVec.ofNat 64 x.step) (leBytes 16 (msgHeader m) ++ x.data)
  | none => x.dests.foldl (releasePut ch x) s

/-- Entries released in order, up to the first that must wait (R256). -/
def sidingRelease (ch : Nat) : List Siding → State → State
  | [], s => s
  | x :: r, s => if canLeave s ch x then sidingRelease ch r (sidingLeave s ch x) else s

/-- The siding entries of a job up to a step. -/
def sidingOf (k : Channel) (j step : Nat) : List Siding :=
  k.siding.filter fun x => x.job == j && decide (x.step ≤ step)

/-- The input entries of a step in their order: data frames, then signals (R283). -/
def inputsOf (v : JobCh) (step : Nat) : List Byte :=
  let es := (v.inputs.filter fun e => e.1 == step).map (·.2)
  (es.filter fun e => fld e 0 1 == 1).flatten ++ (es.filter fun e => fld e 0 1 != 1).flatten

/-- The body of a STEP record (Table 13.3). -/
def stepBody (s : State) (ch j step : Nat) (outputs : List Byte) : List Byte :=
  let k := getCh s ch
  let v := jobOf k j
  let job := getJob s j
  let cs := ((jobCores k j).map (coreOf k)).filter fun c => c.step == step
  let ins := inputsOf v step
  let fits := decide (ins.length ≤ dGet s 0x400 10)
  let on := decide (cGet s ch 0x706 2 ≠ 0) && decide (cGet s ch 0x706 3 = j)
  let flags := cs.foldl (fun f c => f ||| c.stepFlags.toNat % 16) 0
  leBytes 8 step ++ leBytes 8 v.ftLaunch ++ leBytes 8 ((cs.map fun c => c.doneAt.getD c.sched - c.launchAt).foldl max 0) ++
    leBytes 8 (cGet s ch 0x101 1 - v.brakeAt) ++ leBytes 8 (if on then v.cumDig else 0) ++ leBytes 4 v.lag ++
    leBytes 4 (flags + (if fits then 0 else 16)) ++ leBytes 2 (min v.gen 0xFFFF) ++ leBytes 2 v.fsigs ++
    leBytes 4 (if fits then ins.length else 0) ++ zeros 8 ++ leBytes 32 (dGet s (0x640 + j) 4) ++ sm3 job.settings ++ sm3 (seedBytes job) ++
    sm3 ins ++ sm3 outputs ++ zeros 32 ++ (if fits then padTo ((ins.length + 31) / 32 * 32) ins else [])

/-- The replica digest latched at the commit of every N-th step (R278). -/
def latchRdig (s : State) (ch j step : Nat) : State :=
  let n := cGet s ch 0x706 2
  let c := (jobOf (getCh s ch) j).cumDig
  if n = 0 ∨ cGet s ch 0x706 3 ≠ j ∨ (step + 1) % n ≠ 0 then s
  else chEvent (cSet (cSet s ch 0x706 4 c) ch 0x706 5 step) ch 0x0053 j (leBytes 8 step ++ leBytes 8 c)

/-- A channel receives COMMIT (R254, R259): the copies that begin the step are dropped; marks, releases, the record. -/
def commitStart (s : State) (ch j step : Nat) : State :=
  let v := jobOf (getCh s ch) j
  if !v.placed ∨ v.gotCommit ≠ step ∨ v.sentClear ≠ step + 1 then s
  else
    let s := updJobCh s ch j fun v => { v with gotCommit := step + 1, commits := v.commits ++ [⟨step, false, 0⟩] }
    let s := updJobCores s ch j fun _ c => { c with snaps := c.snaps.filter fun p => decide (step < p.step) }
    let s := updCh s ch fun k => markAppends k v setMark
    let out := sidingOf (getCh s ch) j step
    let s := latchRdig (sidingRelease ch out s) ch j step
    let r : JBody := ⟨2, ch, jobTag s j, j, (getCh s ch).ft, stepBody s ch j step ((out.filter fun x => x.step == step).flatMap outputEntry), some (ch, j, step)⟩
    let s := updJobCh s ch j fun v => { v with inputs := v.inputs.filter fun e => decide (step < e.1), appends := [] }
    jnlHand s r

/-- The job a tag names here (R258): its slot, where the tag is its own. -/
def taggedJob (s : State) (tag : Nat) : Option Nat :=
  let j := tag % 65536
  if j < 64 ∧ jobTag s j = tag ∧ (getJob s j).tasks ≠ [] ∧ (getJob s j).st ≠ .receiving then some j else none

/-- CLEAR counted at the lead channel (R258); when every channel has cleared the step in the generation that the lead runs, COMMIT goes to
each. -/
def clearTake (s : State) (ch j step gen dev sch : Nat) : State :=
  let job := getJob s j
  if job.lead ≠ (ownDev s, ch) ∨ step < job.leadStep then s
  else
    let s := updJob s j fun b => { b with cleared := if b.cleared.contains (dev, sch, step, gen) then b.cleared else b.cleared ++ [(dev, sch, step, gen)] }
    let job := getJob s j
    if job.leadStep ≠ step ∨ !(job.chans.all fun e => job.cleared.contains (e.1, e.2, step, (jobOf (getCh s ch) j).gen)) then s
    else
      let s := updJob s j fun b => { b with leadStep := step + 1, cleared := b.cleared.filter fun e => e.2.2.1 != step }
      let s := (job.chans.filter fun e => e != (ownDev s, ch)).foldl (fun s e => sendCtl s ch 4 e.1 e.2 (stepCtl s ch j step)) s
      commitStart s ch j step

/-- STEP_CLEAR (R258): the conditions hold, and the channel sends CLEAR to the lead. -/
def execStepClear (ch : ChId) (j : JobSlot) (s : State) : Host.Outcome State Fault Refusal :=
  let n := ch.toNat
  let j := j.toNat
  match clearReady (getCh s n) j with
  | none => .next s
  | some step =>
    let s := clearDigest (updJobCh s n j fun v => { v with sentClear := step + 1 }) n j
    let lead := (getJob s j).lead
    if lead = (ownDev s, n) then .next (clearTake s n j step (jobOf (getCh s n) j).gen (ownDev s) n)
    else .next (sendCtl s n 3 lead.1 lead.2 (stepCtl s n j step))

/-- A link control item taken at a channel: its LACK, then its effect once (R314). -/
def onLctl (s : State) (ch : Nat) (k : Lctl) (eff : State → Nat → State) : State :=
  match takeLctl s ch k with
  | (s, false) => s
  | (s, true) => match taggedJob s k.tag.toNat with
    | none => s
    | some j => eff s j

/-- LCTL_CLEAR (R258). -/
def execLctlClear (ch : ChId) (k : Lctl) (s : State) : Host.Outcome State Fault Refusal :=
  .next (onLctl s ch.toNat k fun s j => clearTake s ch.toNat j k.step.toNat k.gen.toNat k.srcDev.toNat k.srcCh.toNat)

/-- LCTL_COMMIT (R258, R259). -/
def execLctlCommit (ch : ChId) (k : Lctl) (s : State) : Host.Outcome State Fault Refusal :=
  .next (onLctl s ch.toNat k fun s j => commitStart s ch.toNat j k.step.toNat)

/-! ### What a load wrote is cleared (R238) -/

/-- A core cleared: what the load and the run left goes; its halt record stays readable. -/
def clearCore (c : Core) : Core :=
  { Core.reset with halt := c.halt, status := if c.status = .unavailable then .unavailable else .noTask }

/-- Everything a load wrote in one channel cleared. -/
def clearChannel (s : State) (ch j : Nat) : State :=
  let gone := jobCores (getCh s ch) j
  let s := updJobCores s ch j fun _ c => clearCore c
  updCh s ch fun k =>
    let rs := (k.regions.filter fun r => r.2.job == j).map (·.2)
    { k with
      regions := k.regions.filter fun r => r.2.job != j
      famMap := k.famMap.filter fun e => !rs.any fun r => inRegion r e.1
      staged := k.staged.filter fun e => e.1 != j
      siding := k.siding.filter fun x => x.job != j
      sideUsed := k.sideUsed - ((k.siding.filter fun x => x.job == j).map fun x => x.data.length).sum
      waits := k.waits.filter fun f => !gone.contains f.core
      syncFly := k.syncFly.filter fun f => !gone.contains f.core
      jobs := tabDel k.jobs j }

/-- The clearance of R238 in every channel. -/
def clearJob (s : State) (j : Nat) : State :=
  (List.range 4).foldl (fun s ch => clearChannel s ch j) s

/-- A slot returned to FREE, its objects at their defaults (R355). -/
def freeJob (s : State) (j : Nat) : State :=
  dClear (updJob (clearJob s j) j fun _ => Job.reset) (0x640 + j) (0x641 + j)

/-- Every task of a job in the module has ended of itself, so that its last step clears and commits. -/
def endedWhole (s : State) (j : Nat) : Bool :=
  (jobHere (getJob s j)).all fun ch => (jobCores (getCh s ch) j).all fun n => decide ((coreOf (getCh s ch) n).status = .ended)

/-- The commit of the job's last step has completed (R261): none runs, and where every task has ended, each channel has committed the step
it ran last (DESIGN CHOICE: assumption log, 105). -/
def commitsDone (s : State) (j : Nat) : Bool :=
  (jobHere (getJob s j)).all fun ch =>
    let v := jobOf (getCh s ch) j
    v.commits == [] && (!endedWhole s j || v.step.all fun n => decide (n < v.committed))

/-- A release that waited for the last commit takes effect (R261). -/
def settleRelease (s : State) (j : Nat) : State :=
  if (getJob s j).relWait ∧ commitsDone s j then freeJob s j else s

/-- A commit may complete (Table 12.1, order 4). -/
def commitReady (s : State) (ch j : Nat) (c : Commit) : Bool :=
  let k := getCh s ch
  c.accepted && decide (sidingOf k j c.step = []) && !k.reqs.any fun r => r.job == j && r.rel.any fun n => decide (n ≤ c.step)

/-- COMMIT_COMPLETE (R259, R242): the oldest commit of a job in a channel completes, its event is sent and the pin points advance. -/
def execCommitComplete (ch : ChId) (j : JobSlot) (s : State) : Host.Outcome State Fault Refusal :=
  let n := ch.toNat
  let j := j.toNat
  match (jobOf (getCh s n) j).commits with
  | [] => .next s
  | c :: _ =>
    let s := sidingRelease n (sidingOf (getCh s n) j c.step) s
    if !commitReady s n j c then .next s
    else
      let s := updJobCh s n j fun v => { v with committed := c.step + 1, commits := v.commits.tail }
      let s := chEvent s n 0x0002 j (leBytes 8 c.step ++ leBytes 8 c.seq)
      let s := (jobCores (getCh s n) j).foldl (fun s m => updatePin s n m) s
      .next (settleRelease s j)

/-! ### Seizing (R272, R273) -/

/-- A position fenced (Table 12.6, step 1): its core halts with 0xA2, its egress stops, its queues close; what lands there is discarded
(fillItem). -/
def fenceCore (s : State) (c : CoreId) : State :=
  let s := haltAtOnce s c 0xA2
  updCore s c fun x => shutQueues { x with egress := [], xq := [], xWait := none, grip := .fenced }

/-- The bytes of the receive store that a core's queues use: each message made its queue's SIZE long, a hopper slot's sum and the
contributions that wait. -/
def storeUsed (c : Core) : List Byte :=
  (c.queues.flatMap fun q => q.2.msgs.flatMap fun m => padTo (((endOf c q.1).map fun e => sizeBytes e.size).getD 512) m.2.payload) ++
    c.queues.flatMap fun q => q.2.slots.flatMap fun h => h.2.sum ++ h.2.wait.flatMap fun w => w.msg.payload

/-- A byte of the receive store: which of the bytes in use stands there, and what an unused one holds, the spec leaves open. -/
def storeByte (c : Core) (free i : Nat) : Byte :=
  (storeUsed c).getD (Config.storePlace (c.conns.map fun e => 256 * e.2.queue + e.2.depth) i) (Config.freeByte free i)

/-- A queue in page 0 (R366). -/
def pageQueue (k : Channel) (c : Core) (qn : Nat) : List Byte :=
  let q := queueOf c qn
  let filling := (q.slots.filter fun h => h.2.seen != [] && h.2.ready.isNone).length
  leBytes 4 (queueInfo k c qn) ++ leBytes 2 (if isHopper c qn then (hslotOf q q.next).expect else 0) ++ leBytes 2 filling ++ zeros 8

/-- A connection entry in page 0. -/
def pageConn (c : Core) (n : Nat) : List Byte :=
  match connOf c n with
  | some e => leBytes 1 e.gen ++ leBytes 1 (b2n e.isOpen) ++ leBytes 2 e.seq
  | none => zeros 4

/-- A coupling record in its page. -/
def pageCoupling (c : Core) (n : Nat) : List Byte :=
  match c.coupl[n]? with
  | some r => leBytes 4 r.src ++ leBytes 1 r.entry ++ leBytes 1 r.gen ++ leBytes 1 r.queue ++ [1] ++ leBytes 2 (r.last.getD 0) ++ zeros 22
  | none => zeros 32

/-- A page of a core's message state (R366). -/
def msgPage (k : Channel) (c : Core) (free p : Nat) : List Byte :=
  if p = 0 then padTo 4096 (((List.range 16).flatMap (pageQueue k c)) ++ (List.range 64).flatMap (pageConn c))
  else if p ≤ 16 then (List.range 4096).map fun i => storeByte c free (4096 * (p - 1) + i)
  else (List.range 128).flatMap fun i => pageCoupling c (128 * (p - 17) + i)

/-- The 21 pages of a core's message state. -/
def msgPages (k : Channel) (c : Core) (free : Nat) : List (List Byte) :=
  (List.range 21).map (msgPage k c free)

/-- Steps 2 and 3 of Table 12.6: the dumps, then the grip on the homes, queues, coupling records and ring credits. -/
def seizeTake (s : State) (ch n : Nat) : State :=
  let (f, s) := drawFree (takeDump s ch 1)
  let d := msgPages (getCh s ch) (coreOf (getCh s ch) n) f
  updCh s ch fun k => updCoreOf k n fun c => { c with
    coupl := [], queues := tabMap c.queues fun _ q => { Queue.reset with shut := q.shut }, dumped := d, grip := .seized }

/-- Step 4 of Table 12.6: the homes are at the spare or the fallback home, and what waited there goes on. -/
def seizeRelease (s : State) (ch n : Nat) : State :=
  updCh s ch fun k => updCoreOf k n fun c => { c with grip := .released }

/-- The transfers of a fenced core have drained, those to unreachable homes left out (R150, R272). -/
def coreDrained (s : State) (ch n : Nat) : Bool :=
  let k := getCh s ch
  let c := coreOf k n
  decide (c.putFly = [] ∧ c.fill = [] ∧ c.lPipe = [] ∧ c.mPipe = [] ∧ c.drains = [] ∧ c.vPipe = [] ∧ c.verdicts = []) &&
    !k.reqs.any fun r => r.core == some n && homeReach s ch r.home

/-- SEIZE_FENCE_DRAINED (R272): a position seized by CHK_SEIZE_POS is drained; the dump is taken, its resources are seized and its homes
move to the fallback home. -/
def execSeizeFenceDrained (ch : ChId) (s : State) : Host.Outcome State Fault Refusal :=
  let n := ch.toNat
  match (getCh s n).seize with
  | none => .next s
  | some z => match z.core with
    | none => .next (updCh (takeDump s n 1) n fun k => { k with seize := none })
    | some c =>
      if coreDrained s n c then .next (updCh (seizeRelease (seizeTake s n c) n c) n fun k => { k with
        seize := none, reqs := k.reqs.filter fun r => r.core != some c })
      else .next s

/-! ### The restore of a revoked step (R265, Table 12.3) -/

/-- A core's connection state and rounds put back, its queues and hopper slots empty (R165). -/
def restoreQueues (p : Snapshot) (qn : Nat) (_q : Queue) : Queue :=
  { Queue.reset with slots := tabMap (tabGet p.rounds [] qn) (fun _ r => HSlot.reset r), next := tabGet p.nexts 0 qn }

/-- A ring put back (R151): pointers, states and credits as the copy holds them; what landed since stays landed where its contents did
not change. -/
def restoreRing (now : Ring) (was : Ring) : Ring :=
  { was with
    puts := was.puts.map fun p => match now.puts.find? fun q => q.id == p.id with
      | some q => { p with need := q.need, doneAt := q.doneAt }
      | none => { p with need := 0, doneAt := some (p.doneAt.getD 0) }
    slots := tabMap was.slots fun n x =>
      let y := slotOf now n
      if x.st = .free then { x with ver := y.ver }
      else if x.ver = y.ver ∧ y.landed.isSome then { x with landed := y.landed }
      else { x with landed := none, ver := y.ver } }

/-- A lead's slots put back with the releases that its members had made by their step rows, whether or not they had reached it (R149,
R151). -/
def settleLead (k : Channel) (lead : Nat) (c : Core) : Core :=
  { c with rings := tabMap c.rings fun r g => match g.desc with
    | none => g
    | some d =>
      if d.kind ≠ 3 then g
      else { g with slots := tabMap g.slots fun i x =>
        if x.st = .free then x
        else
          let gone := fun m => if m = lead then x.released else decide ((slotOf (ringOf (coreOf k m) r) i).st = .free)
          let freed := (itemCores lead d).filter gone
          if freed = itemCores lead d then { x with st := .free, freed := [], released := false } else { x with freed := freed } } }

/-- A core restored to the start of a step (R36, R151, R165, R254, R265); it holds for the replay, and its halt record stays. -/
def restoreCore (step : Nat) (c : Core) : Core :=
  match c.snaps.find? fun p => p.step == step with
  | none => c
  | some p =>
    if c.status = .unavailable then c
    else
      let kept := c.ecr.filter fun e => !(ecrSnapshot.contains e.1 || e.1 == stagedPower)
      { c with
        status := .holding, toLaunch := some step, doneAt := none, pendHalt := none, g := p.g, loops := p.loops, skips := p.skips, pc := p.pc
        ecr := p.ecr.foldl (fun t e => tabSet t e.1 e.2) kept
        rings := tabMap p.rings fun r g => restoreRing (ringOf c r) g
        conns := p.conns, coupl := p.coupl, queues := tabMap c.queues (restoreQueues p), sched := p.sched, rdig := p.rdig
        xq := [], xLast := none, xHeld := false, xWait := none, sends := [], egress := [], stepFlags := 0
        grip := .free, snaps := c.snaps.filter (fun q => decide (q.step ≤ step)), pins := c.pins.filter fun q => decide (q.1 ≤ step) }

/-- A slot fetched again (R151, order 6): from its recorded address, for this core alone. -/
def refetchSlot (ch n r : Nat) (d : Desc) (s : State) (e : Nat × RSlot) : State :=
  let k := getCh s ch
  let c := coreOf k n
  let o : Origin := ⟨c.pc, c.sched, 5, 0, c.step⟩
  if e.2.st = .free ∨ e.2.landed.isSome then s
  else if d.kind = 2 then
    updCh s ch fun k => { k with remotes := k.remotes ++ [⟨k.sched, issueOrder s (mkCore ch n), n, bits d.faddr 16 7, e.2.item, r, e.1, e.2.seq, o⟩] }
  else match translate s ch c.job e.2.item (itemBytes d) false false with
    | .ok t => fetchItem s (mkCore ch n) [n] r e.1 e.2.seq (issueOrder s (mkCore ch n)) (itemBytes d) t .clean o
    | .error x => haltOrigin s (mkCore ch n) o x

/-- Every slot of a core that the step changed fetched again. -/
def refetchCore (ch : Nat) (s : State) (n : Nat) : State :=
  (coreOf (getCh s ch) n).rings.foldl (fun s g => match g.2.desc with
    | none => s
    | some d => if d.kind = 1 then s else g.2.slots.foldl (refetchSlot ch n g.1 d) s) s

/-- Orders 5 and 6 of Table 12.3: copies, objects, staged map writes, fetches; then the job holds. -/
def restoreJob (s : State) (ch j : Nat) (r : Revoke) : State :=
  let s := updJobCores s ch j fun _ c => restoreCore r.step c
  let s := let k := getCh s ch; updJobCores s ch j fun n c => settleLead k n c
  let s := applyStaged (restoreObjs s ch j) ch j
  let s := updJobCh s ch j fun v => { v with revoke := v.revoke.map fun r => { r with phase := .holding, shunts := [] } }
  (jobCores (getCh s ch) j).foldl (refetchCore ch) s

/-- Order 3 of Table 12.3: the step's siding entries are discarded, queues and hopper slots emptied, TOP returned; of the waits and releases
still about nothing is left (R264). A step that filled the siding stays one that cannot clear (R257). -/
def discardStep (s : State) (ch j step : Nat) : State :=
  let v := jobOf (getCh s ch) j
  let s := updCh s ch fun k =>
    let gone := k.siding.filter fun x => x.job == j && x.step == step
    let cs := jobCores k j
    let k := { k with waits := k.waits.filter (fun f => !cs.contains f.core), syncFly := k.syncFly.filter (fun f => !cs.contains f.core)
                      siding := k.siding.filter (fun x => !gone.contains x), sideUsed := k.sideUsed - (gone.map fun x => x.data.length).sum }
    markAppends k v resetTop
  let s := updJobCores s ch j fun _ c => { c with queues := tabMap c.queues fun _ q => { q with msgs := [], slots := [], reading := none } }
  updJobCh s ch j fun v => { v with appends := [] }

/-- The state of a position, that under an open inspection window as the window found it (R276). -/
def posUnder (k : Channel) (cl pos : Nat) : PosSt :=
  match posState k cl pos with
  | .inspecting => ((k.insps.find? fun w => w.pos == posKey cl pos).map (·.was)).getD .inspecting
  | p => p

/-- The spare of a cluster to which no logical core maps (R269). -/
def spareAt (k : Channel) (cl : Nat) : Option Nat :=
  (List.range 17).find? fun p => decide (posUnder k cl p = .spareFree)

/-- A shunt in a cluster has taken its spare, whose copy runs. -/
def spareTaken (k : Channel) (cl : Nat) : Bool :=
  k.jobs.any fun e => e.2.revoke.any fun r => decide (r.phase = .shunting) && r.shunts.any fun n => n / 16 == cl

/-- The free spare of a cluster (R269). -/
def spareOf (k : Channel) (cl : Nat) : Option Nat :=
  if spareTaken k cl then none else spareAt k cl

/-- A logical core lost for want of a spare (R271). -/
def loseCore (s : State) (ch n : Nat) : State :=
  let c := mkCore ch n
  let s := haltAtOnce s c 0xA3
  let j := (getCore s c).job
  let s := seizeRelease (seizeTake s ch n) ch n
  let s := updCore s c fun x => { x with status := .unavailable }
  let s := updCh s ch fun k => { k with posSt := tabSet k.posSt (posKey (n / 16) (posOf k n)) .unavailable }
  chEvent s ch 0x0052 j (leBytes 1 (n / 16) ++ leBytes 1 (n % 16))

/-- The named positions of a restore dealt with (R269, R271): the first of each cluster with a free spare is seized for its shunt, any
other is lost. -/
def shuntStart (ch : Nat) : List Nat → List Nat → State → List Nat × State
  | [], todo, s => (todo, s)
  | n :: r, todo, s =>
    if (spareOf (getCh s ch) (n / 16)).isSome ∧ !(todo.any fun m => m / 16 == n / 16) then
      shuntStart ch r (todo ++ [n]) (seizeTake (fenceCore s (mkCore ch n)) ch n)
    else shuntStart ch r todo (loseCore s ch n)

/-- Orders 5 to 7, or the end of recovery where a core is lost (R265, R271). -/
def shuntsDone (s : State) (ch j : Nat) (r : Revoke) : State :=
  if (jobCores (getCh s ch) j).any fun n => (coreOf (getCh s ch) n).status == .unavailable then
    settleJob (updJobCh s ch j fun v => { v with revoke := v.revoke.map fun r => { r with phase := .lost, shunts := [] } }) j
  else restoreJob s ch j r

/-- Nothing of a job is in flight in a channel, what goes to unreachable homes left out (R150, R265). -/
def jobDrained (s : State) (ch j : Nat) : Bool :=
  let k := getCh s ch
  let cs := jobCores k j
  (cs.all fun n =>
    let c := coreOf k n
    coreDrained s ch n && decide (c.egress = [] ∧ c.stq = [] ∧ c.fill = [])) &&
    !k.msgFly.any (fun f => cs.contains (inCh (addrCore f.msg.dst))) && !k.remotes.any (fun f => cs.contains f.reader) &&
    !k.srels.any fun f => cs.contains f.lead

/-- The cycles a shunt's copy takes: 64 to set up, then 256 B a cycle of Table 12.5 (R269). -/
def copyCycles (bound : Nat) : Nat :=
  64 + (bound * 4096 + 176640) / 256

/-- The channel cycle at which the copy of a logical core that starts now is complete. -/
def copyDue (k : Channel) (n : Nat) : Nat :=
  k.cycles + copyCycles (coreOf k n).bound

/-- REVOKE_DRAIN_COMPLETE (R265, orders 2 to 4): abandoned requests go, the step's effects are discarded, named positions seized. -/
def execRevokeDrainComplete (ch : ChId) (j : JobSlot) (s : State) : Host.Outcome State Fault Refusal :=
  let n := ch.toNat
  let j := j.toNat
  match (jobOf (getCh s n) j).revoke with
  | none => .next s
  | some r =>
    if r.phase ≠ .draining ∨ !jobDrained s n j then .next s
    else
      let cs := jobCores (getCh s n) j
      let s := updCh s n fun k => { k with reqs := k.reqs.filter fun q => !(q.core.any fun m => cs.contains m) }
      let s := discardStep s n j r.step
      let d := shuntStart n (r.shunts.mergeSort fun a b => decide (a ≤ b)) [] s
      let r := { r with phase := .shunting, shunts := d.1, copies := d.1.map fun m => (m, copyDue (getCh s n) m) }
      let s := updJobCh d.2 n j fun v => { v with revoke := some r }
      if d.1 = [] then .next (shuntsDone s n j r) else .next s

/-- The revoke in a channel that shunts a position of a cluster whose copy is complete, and that logical core. -/
def shuntIn (k : Channel) (cl : Nat) : Option (Nat × Revoke × Nat) :=
  k.jobs.findSome? fun e => e.2.revoke.bind fun r =>
    if r.phase = .shunting then
      (r.shunts.find? fun n => n / 16 == cl && decide (tabGet r.copies 0 n ≤ k.cycles)).map fun n => (e.1, r, n)
    else none

/-- SHUNT_COPY_COMPLETE (R269): the logical core maps to the spare, whose position takes its place; the old one is FAILED. -/
def execShuntCopyComplete (ch : ChId) (cl : BitVec 3) (s : State) : Host.Outcome State Fault Refusal :=
  let n := ch.toNat
  match shuntIn (getCh s n) cl.toNat with
  | none => .next s
  | some (j, r, m) =>
    let old := posOf (getCh s n) m
    let new := (spareAt (getCh s n) cl.toNat).getD old
    let s := updCh (seizeRelease s n m) n fun k => { k with
      phys := tabSet k.phys m new
      posSt := tabSet (tabSet k.posSt (posKey cl.toNat old) .failed) (posKey cl.toNat new) .inUse }
    let r := { r with shunts := r.shunts.erase m }
    let s := updJobCh s n j fun v => { v with revoke := some r }
    if r.shunts = [] then .next (shuntsDone s n j r) else .next s

/-- LCTL_REVOKE (R263, R266): from another module it is passed on to the channels of this one. -/
def execLctlRevoke (ch : ChId) (k : Lctl) (s : State) : Host.Outcome State Fault Refusal :=
  let n := ch.toNat
  .next (onLctl s n k fun s j =>
    let s := if k.srcDev.toNat = ownDev s then s
      else (siblings s n j).foldl (fun s c => relayLctl s c 2 { k with srcDev := BitVec.ofNat 12 (ownDev s), srcCh := BitVec.ofNat 2 n }) s
    revokeAct s n j k.step.toNat k.gen.toNat k.time.toNat true [])

/-- LCTL_BARRIER (R227, R314): the hub starts the job when the countdown has run out. -/
def execLctlBarrier (ch : ChId) (k : Lctl) (s : State) : Host.Outcome State Fault Refusal :=
  .next (onLctl s ch.toNat k fun s j =>
    if (getJob s j).st = .loaded ∧ (getJob s j).released = 0 then
      updJob s j fun b => { b with barrier := some (s.hub.time + k.time.toNat / 16), launched := true }
    else s)

/-! ### Task end (R38) -/

/-- Everything a core issued has completed. -/
def coreQuiet (k : Channel) (n : Nat) (c : Core) : Bool :=
  coreSettled k.cycles c && decide (c.xq = []) && c.xWait.isNone && decide (c.fill = []) && !k.reqs.any (fun r => r.core == some n) &&
    !k.remotes.any (fun f => f.reader == n) && !k.syncFly.any fun f => f.core == n

/-- TASK_END (R38): the task of a done row has completed its last operation: its queues close, and the job may end. -/
def execTaskEnd (c : CoreId) (s : State) : Host.Outcome State Fault Refusal :=
  let k := getCore s c
  if k.status = .done ∧ coreQuiet (getCh s (chOf c)) (inCh c) k then
    let s := settleQueues (updCore s c fun x => shutQueues { x with status := .ended }) (chOf c) k.job
    .next (settleJob s k.job)
  else .next s

end Sys2Proof.Machine
end

