-- ==== Sys2Proof/Machine/Data.lean ====
section
/-! DEFINITION. Data: the data frames of the host port (R342-R344, Tables 15.5, 15.6), their homes, and AHN_ENABLE (Table 15.1). -/

namespace Sys2Proof.Machine

/-! ### Gates -/

/-- The hub takes frames: it is powered, in Ready or Serving (R373). -/
def hubServes (s : State) : Bool :=
  decide (s.hub.st = .ready ∨ s.hub.st = .serving)

/-- JOB names a slot that is RECEIVING, LOADED or RUNNING (Table 15.6, 0x31). -/
def dataSlot (s : State) (jb : Nat) : Bool :=
  decide (jb < 64) && jobLive (getJob s jb)

/-- A length of a WRITE or READ, with its address (R342). -/
def dataRange (a n : Nat) : Bool :=
  decide (a % 32 = 0) && decide (n % 32 = 0) && decide (32 ≤ n ∧ n ≤ 8192)

/-- The STATUS that turns a data frame away before its effect, in the order slot, channel, length (DESIGN CHOICE: assumption log, 30). -/
def dataGate (s : State) (ch jb : Nat) (fits : Bool) : Option Nat :=
  if !dataSlot s jb then some 0x31 else if (getCh s ch).st ≠ .serving then some 0x32 else if !fits then some 0x33 else none

/-! ### Homes -/

/-- What a home of this module does with an access of `n` bytes: takes it, refuses it (R212), or gives no answer. -/
inductive HomeFate where
  | takes | refuses | silent
deriving DecidableEq, Repr

/-- The fate of a data frame at a home of this module. The held regions of R252 do not bind it (R343). -/
def homeFate (s : State) (t : Target) (n : Nat) : HomeFate :=
  if (getCh s t.ch).st ≠ .serving then .silent
  else if t.tier = 0 then
    match putFate (coreOf (getCh s t.ch) (bits t.addr 21 7)) (t.addr % 2 ^ 21) n with
    | .halted 0x2A => .refuses
    | _ => .takes
  else if !rangeThere s t.ch t.tier t.addr n then .refuses
  else if !tierUp s t.ch t.tier then .silent else .takes

/-- The home lies in this module. -/
def isHere (s : State) (t : Target) : Bool :=
  decide (t.dev = ownDev s)

/-- Bytes written at a home of this module that takes them; a core with no running task discards them, and an event says so (R212). -/
def homeWrite (bs : List Byte) (s : State) (t : Target) : State :=
  if t.tier = 0 then
    let n := bits t.addr 21 7
    let c := coreOf (getCh s t.ch) n
    if taskRuns c then updCh s t.ch fun k => updCoreOf k n fun x => fillWrite [] x (t.addr % 2 ^ 21, bs)
    else chEvent s t.ch 0x0043 c.job (leBytes 1 (n / 16) ++ leBytes 1 (n % 16))
  else tierPut s t.ch t.tier t.addr bs

/-- A home can take a write of `n` bytes, as far as this module knows. -/
def homeServes (s : State) (ch n : Nat) (t : Target) : Bool :=
  if isHere s t then homeFate s t n == .takes else homeReach s ch t

/-- The request of a data frame to a home. -/
def dataReq (s : State) (write : Bool) (jb cseq n : Nat) (home : Target) (alt : Option Target) : Request :=
  { tag := 0, core := none, takers := [], ring := 0, slot := 0, seq := 0, order := 0, write := write, cseq := cseq, rel := none, job := jb,
    asked := s.hub.time, len := n, parts := 0, got := [], home := home, alt := alt, notes := [], org := ⟨0, 0, 0, 0, 0⟩ }

/-- A home that gives no answer: the frame waits, with no packet under way, until its millisecond has passed (Table 15.6, 0x34). -/
def dataWaits (ch : Nat) (r : Request) (s : State) : State :=
  updCh s ch fun k => { k with reqs := k.reqs ++ [r] }

/-- A WRITE at one of its homes; one that gives no answer while the page's other home can take it is left stale (R210, R212). `notes` is
what the frame enters when it is acknowledged. -/
def writeHome (ch jb cseq : Nat) (bs : List Byte) (notes : List (Nat × List Byte)) (dests : List Target) (s : State) (t : Target) : State :=
  let r := { dataReq s true jb cseq bs.length t (dests.find? fun o => o != t) with notes := notes }
  let stale := dests.any fun o => o != t && homeServes s ch bs.length o
  if !isHere s t then (if stale ∧ !homeReach s ch t then staleEvent s ch jb t else makeRequest s ch r bs)
  else match homeFate s t bs.length with
    | .takes => homeWrite bs s t
    | _ => if stale then staleEvent s ch jb t else dataWaits ch r s

/-- A WRITE waits for a home. -/
def writeWaits (k : Channel) (cseq : Nat) : Bool :=
  k.reqs.any fun r => r.core.isNone && r.rel.isNone && r.write && r.cseq == cseq

/-- A translated WRITE (R343): refused where a home refuses it; else written at its homes, and acknowledged when all have it. -/
def writeAll (s : State) (ch jb a cseq : Nat) (bs : List Byte) (t : Trans) : State :=
  if t.dests.any fun x => isHere s x && homeFate s x bs.length == .refuses then dataAnswer s 2 0x2A jb cseq []
  else
    let took := (t.dests.filter fun x => isHere s x && homeFate s x bs.length == .takes).map (·.ch)
    let notes := took.dedup.map fun n => (n, ioEntry 1 a bs.length bs)
    let s := t.dests.foldl (writeHome ch jb cseq bs notes t.dests) (noteWrite s ch jb t)
    if writeWaits (getCh s ch) cseq then s else dataAnswer (frameTaken jb s notes) 2 0x00 jb cseq []

/-- DATA_WRITE (R342, R343). -/
def execDataWrite (ch : ChId) (jb : BitVec 16) (addr : BitVec 56) (bytes : List Byte) (cseq : Word) (s : State) :
    Host.Outcome State Fault Refusal :=
  let n := ch.toNat
  let a := addr.toNat
  if !hubServes s then .next s
  else match dataGate s n jb.toNat (dataRange a bytes.length) with
    | some e => .next (dataAnswer s 2 e jb.toNat cseq.toNat [])
    | none => match translate s n jb.toNat a bytes.length true true with
      | .error e => .next (dataAnswer s 2 (if e = 0x29 then 0x29 else 0x2A) jb.toNat cseq.toNat [])
      | .ok t => .next (writeAll s n jb.toNat a cseq.toNat bytes t)

/-- What the read of a data frame meets in a memory of this module (R195). -/
def frameEcc (s : State) (ch : Nat) : Ecc :=
  match Config.frameMeets ch s.hub.time with
  | 0 => .clean
  | 1 => .single
  | _ => .double

/-- A READ at a home (R343): read at once in this module, by packets elsewhere; without an answer the replica is read (R210). -/
def readHome (s : State) (ch jb cseq n : Nat) (home : Target) (alt : Option Target) : State :=
  let r := dataReq s false jb cseq n home alt
  if !isHere s home then makeRequest s ch r []
  else match homeFate s home n with
    | .takes =>
      let ecc := frameEcc s home.ch
      let s := readMeets s home.ch home.tier ecc
      if ecc = .double then frameFails s ch r
      else dataAnswer s 4 0x00 jb cseq (tierRead (getCh s home.ch) home.tier home.addr n)
    | .refuses => dataAnswer s 4 0x2A jb cseq []
    | .silent => dataWaits ch r s

/-- A translated READ: from its home, from the replica where the home gives no answer. -/
def readAll (s : State) (ch jb cseq n : Nat) (t : Trans) : State :=
  match t.dests.head? with
  | none => s
  | some h =>
    match t.alt with
    | some f => if isHere s h ∧ homeFate s h n = .silent then readHome s ch jb cseq n f none else readHome s ch jb cseq n h t.alt
    | none => readHome s ch jb cseq n h none

/-- DATA_READ (R342, R343). -/
def execDataRead (ch : ChId) (jb : BitVec 16) (addr : BitVec 56) (len cseq : Word) (s : State) : Host.Outcome State Fault Refusal :=
  let n := ch.toNat
  let a := addr.toNat
  if !hubServes s then .next s
  else match dataGate s n jb.toNat (dataRange a len.toNat) with
    | some e => .next (dataAnswer s 4 e jb.toNat cseq.toNat [])
    | none => match translate s n jb.toNat a len.toNat false true with
      | .error e => .next (dataAnswer s 4 (if e = 0x29 then 0x29 else 0x2A) jb.toNat cseq.toNat [])
      | .ok t => .next (readAll s n jb.toNat cseq.toNat len.toNat t)

/-! ### No answer (R343, Table 15.6) -/

/-- The data frames that wait in a channel. -/
def dataReqs (k : Channel) : List Request :=
  k.reqs.filter fun r => r.core.isNone && r.rel.isNone

/-- The data frame of the module that has waited longest, with its channel. -/
def oldestReq (s : State) : Option (Nat × Request) :=
  ((List.range 4).flatMap fun n => (dataReqs (getCh s n)).map fun r => (n, r)).foldl (fun b x => match b with
    | none => some x
    | some y => if x.2.asked < y.2.asked then some x else b) none

/-- Two requests are of one data frame. -/
def sameFrame (a b : Request) : Bool :=
  a.core.isNone && a.rel.isNone && a.write == b.write && a.cseq == b.cseq && a.job == b.job

/-- NO_ANSWER_TIMEOUT: the data frame that has waited longest is answered 0x34. -/
def execNoAnswerTimeout (s : State) : Host.Outcome State Fault Refusal :=
  match oldestReq s with
  | none => .next s
  | some (n, r) =>
    .next (dataAnswer (updCh s n fun k => { k with reqs := k.reqs.filter fun x => !sameFrame x r }) (if r.write then 2 else 4) 0x34 r.job r.cseq [])

/-! ### Messages of the control node (R344) -/

/-- A message of the control node: ENTRY and SEQ carry the job slot and the CSEQ that MSG_STATUS answers. -/
def nodeMsg (s : State) (c : CoreId) (jb qn cseq : Nat) (bs : List Byte) : Msg :=
  { type := 0, src := 0, dst := addrOf s c, entry := jb, gen := 0, queue := qn, sidx := 0, seq := cseq, digest := none, payload := bs,
    fromNode := true, org := ⟨0, 0, 0, 0, 0⟩ }

/-- A message's length (Table 15.5). -/
def msgLen (n : Nat) : Bool :=
  decide (512 ≤ n ∧ n ≤ 4096) && decide (n % 512 = 0)

/-- MSG_IN (R344): offered to the queue, and answered with MSG_STATUS. -/
def execMsgIn (c : CoreId) (jb : BitVec 16) (qn : BitVec 4) (bytes : List Byte) (cseq : Word) (s : State) :
    Host.Outcome State Fault Refusal :=
  let ch := chOf c
  let m := nodeMsg s c jb.toNat qn.toNat cseq.toNat bytes
  if !hubServes s then .next s
  else match dataGate s ch jb.toNat (msgLen bytes.length) with
    | some e => .next (dataAnswer s 7 e jb.toNat cseq.toNat [])
    | none =>
      if (getCore s c).job ≠ jb.toNat ∨ isHopper (getCore s c) qn.toNat then .next (refuseMsg s ch (inCh c) 4 m)
      else .next (acceptMsg ch (inCh c) s ⟨(getCh s ch).cycles, false, none, m⟩)

/-! ### Enabling the links (Table 15.1) -/

/-- AHN_ENABLE: true is written. -/
def execAhnEnable (q : Req) (l : BitVec 1) (s : State) : Host.Outcome State Fault Refusal :=
  let n := l.toNat
  .next (onWrite s q (0x0110 + n) 1 fun s =>
    let s := dSet s (0x0110 + n) 1 1
    match (getAhn s n).st with
    | .disabled => answer (ahnEnter s n .dark) q 0x00 []
    | .shutdown => answer (ahnEnter s n .restarting) q 0x00 []
    | _ => answer s q 0x00 [])

/-- AHN_DISABLE: false is written; new frames stop at once. -/
def execAhnDisable (q : Req) (l : BitVec 1) (s : State) : Host.Outcome State Fault Refusal :=
  let n := l.toNat
  .next (onWrite s q (0x0110 + n) 1 fun s =>
    let s := dSet s (0x0110 + n) 1 0
    match (getAhn s n).st with
    | .disabled => answer s q 0x00 []
    | .shutdown => answer s q 0x00 []
    | _ => answer (ahnEnter s n .shutdown) q 0x00 [])

end Sys2Proof.Machine
end

