-- ==== Sys2Proof/Decode.lean ====
section
/-! DEFINITION. Decode: the row word a core fetches, slot by slot (R25, Tables 2.1, 2.2, 2.4, 2.8, 2.9, 2.11, 4.3, 5.2, 8.2), and the
command words of the table, of which there are none. A slot word of zeros is the slot's no-op. -/

namespace Sys2Proof

/-- Bits `lo` on of a number, as many as the field's width. -/
def fieldAt {n : Nat} (v lo : Nat) : BitVec n :=
  BitVec.ofNat n (v / 2 ^ lo)

/-- A one-bit field. -/
def flagAt (v lo : Nat) : Bool :=
  v.testBit lo

/-- What a slot word spells: the halt reason of its op field, or its instruction; none for the no-op. -/
abbrev SlotRead := Except Nat (Option Instr)

/-- The word of a no-op op: every bit below must be zero (R25). -/
def nopRead (low reason : Nat) : SlotRead :=
  if low = 0 then .ok none else .error reason

/-- The P slot (Table 2.2). -/
def decodeP (c : CoreId) (v : Nat) : SlotRead :=
  match v / 2 ^ 28 with
  | 0 => nopRead v 0x08
  | 1 => .ok (some (.loop c (fieldAt v 26) (flagAt v 25) (fieldAt v 21) (fieldAt v 12) (fieldAt v 0)))
  | 2 => .ok (some (.setc c (fieldAt v 26) (fieldAt v 24) (fieldAt v 0)))
  | 3 => .ok (some (.skip c (fieldAt v 24) (flagAt v 23) (fieldAt v 17) (fieldAt v 6) (fieldAt v 0)))
  | 4 => .ok (some (.step c (fieldAt v 0)))
  | 5 => .ok (some (.done c (fieldAt v 0)))
  | 6 => .ok (some (.hlt c (fieldAt v 24) (flagAt v 23) (fieldAt v 8) (fieldAt v 0)))
  | _ => .error 0x01

/-- The C slot (Tables 2.3, 2.4). -/
def decodeC (c : CoreId) (v : Nat) : SlotRead :=
  match v / 2 ^ 26 with
  | 0 => nopRead v 0x08
  | 0x01 => .ok (some (.add c (fieldAt v 22) (fieldAt v 18) (fieldAt v 14) (fieldAt v 0)))
  | 0x02 => .ok (some (.sub c (fieldAt v 22) (fieldAt v 18) (fieldAt v 14) (fieldAt v 0)))
  | 0x03 => .ok (some (.mul c (fieldAt v 22) (fieldAt v 18) (fieldAt v 14) (fieldAt v 0)))
  | 0x04 => .ok (some (.mulh c (fieldAt v 22) (fieldAt v 18) (fieldAt v 14) (fieldAt v 0)))
  | 0x05 => .ok (some (.mulhu c (fieldAt v 22) (fieldAt v 18) (fieldAt v 14) (fieldAt v 0)))
  | 0x06 => .ok (some (.min c (fieldAt v 22) (fieldAt v 18) (fieldAt v 14) (fieldAt v 0)))
  | 0x07 => .ok (some (.max c (fieldAt v 22) (fieldAt v 18) (fieldAt v 14) (fieldAt v 0)))
  | 0x08 => .ok (some (.and c (fieldAt v 22) (fieldAt v 18) (fieldAt v 14) (fieldAt v 0)))
  | 0x09 => .ok (some (.or c (fieldAt v 22) (fieldAt v 18) (fieldAt v 14) (fieldAt v 0)))
  | 0x0a => .ok (some (.xor c (fieldAt v 22) (fieldAt v 18) (fieldAt v 14) (fieldAt v 0)))
  | 0x0b => .ok (some (.sll c (fieldAt v 22) (fieldAt v 18) (fieldAt v 14) (fieldAt v 0)))
  | 0x0c => .ok (some (.srl c (fieldAt v 22) (fieldAt v 18) (fieldAt v 14) (fieldAt v 0)))
  | 0x0d => .ok (some (.sra c (fieldAt v 22) (fieldAt v 18) (fieldAt v 14) (fieldAt v 0)))
  | 0x0e => .ok (some (.seq c (fieldAt v 22) (fieldAt v 18) (fieldAt v 14) (fieldAt v 0)))
  | 0x0f => .ok (some (.sne c (fieldAt v 22) (fieldAt v 18) (fieldAt v 14) (fieldAt v 0)))
  | 0x10 => .ok (some (.slt c (fieldAt v 22) (fieldAt v 18) (fieldAt v 14) (fieldAt v 0)))
  | 0x11 => .ok (some (.sltu c (fieldAt v 22) (fieldAt v 18) (fieldAt v 14) (fieldAt v 0)))
  | 0x12 => .ok (some (.sel c (fieldAt v 22) (fieldAt v 18) (fieldAt v 14) (fieldAt v 0)))
  | 0x13 => .ok (some (.clz c (fieldAt v 22) (fieldAt v 18) (fieldAt v 14) (fieldAt v 0)))
  | 0x14 => .ok (some (.popc c (fieldAt v 22) (fieldAt v 18) (fieldAt v 14) (fieldAt v 0)))
  | 0x18 => .ok (some (.addi c (fieldAt v 22) (fieldAt v 18) (fieldAt v 0)))
  | 0x19 => .ok (some (.andi c (fieldAt v 22) (fieldAt v 18) (fieldAt v 0)))
  | 0x1a => .ok (some (.ori c (fieldAt v 22) (fieldAt v 18) (fieldAt v 0)))
  | 0x1b => .ok (some (.xori c (fieldAt v 22) (fieldAt v 18) (fieldAt v 0)))
  | 0x1c => .ok (some (.slli c (fieldAt v 22) (fieldAt v 18) (fieldAt v 0)))
  | 0x1d => .ok (some (.srli c (fieldAt v 22) (fieldAt v 18) (fieldAt v 0)))
  | 0x1e => .ok (some (.srai c (fieldAt v 22) (fieldAt v 18) (fieldAt v 0)))
  | 0x1f => .ok (some (.seqi c (fieldAt v 22) (fieldAt v 18) (fieldAt v 0)))
  | 0x20 => .ok (some (.slti c (fieldAt v 22) (fieldAt v 18) (fieldAt v 0)))
  | 0x21 => .ok (some (.sltiu c (fieldAt v 22) (fieldAt v 18) (fieldAt v 0)))
  | 0x22 => .ok (some (.li c (fieldAt v 22) (fieldAt v 0)))
  | 0x23 => .ok (some (.lui c (fieldAt v 22) (fieldAt v 0)))
  | 0x28 => .ok (some (.lw c (fieldAt v 22) (fieldAt v 18) (fieldAt v 0)))
  | 0x29 => .ok (some (.lh c (fieldAt v 22) (fieldAt v 18) (fieldAt v 0)))
  | 0x2a => .ok (some (.lhu c (fieldAt v 22) (fieldAt v 18) (fieldAt v 0)))
  | 0x2b => .ok (some (.lb c (fieldAt v 22) (fieldAt v 18) (fieldAt v 0)))
  | 0x2c => .ok (some (.lbu c (fieldAt v 22) (fieldAt v 18) (fieldAt v 0)))
  | 0x2d => .ok (some (.sw c (fieldAt v 22) (fieldAt v 18) (fieldAt v 0)))
  | 0x2e => .ok (some (.sh c (fieldAt v 22) (fieldAt v 18) (fieldAt v 0)))
  | 0x2f => .ok (some (.sb c (fieldAt v 22) (fieldAt v 18) (fieldAt v 0)))
  | 0x30 => .ok (some (.mte c (fieldAt v 22) (fieldAt v 12) (fieldAt v 0)))
  | 0x31 => .ok (some (.mfe c (fieldAt v 22) (fieldAt v 12) (fieldAt v 0)))
  | 0x32 => .ok (some (.mtc c (fieldAt v 24) (fieldAt v 20) (fieldAt v 0)))
  | 0x33 => .ok (some (.mfl c (fieldAt v 24) (fieldAt v 20) (fieldAt v 0)))
  | 0x34 => .ok (some (.rdt c (fieldAt v 22) (fieldAt v 19) (fieldAt v 0)))
  | _ => .error 0x02

/-- The L slot (Table 2.8): kind 4 of a load is the accumulator preload. -/
def decodeL (c : CoreId) (v : Nat) : SlotRead :=
  let op := v / 2 ^ 28
  if op = 0 then nopRead v 0x08
  else if op = 1 ∨ op = 2 then
    if v / 2 ^ 25 % 8 = 4 then .ok (some (.accPreload c (op == 2) (fieldAt v 20) (fieldAt v 16) (fieldAt v 0) .clean))
    else .ok (some (.load c (op == 2) (fieldAt v 25) (fieldAt v 20) (fieldAt v 16) (fieldAt v 0) .clean))
  else if op = 3 ∨ op = 4 then .ok (some (.store c (op == 4) (fieldAt v 25) (fieldAt v 20) (fieldAt v 16) (fieldAt v 0)))
  else .error 0x03

/-- The M slot (Table 4.3). -/
def decodeM (c : CoreId) (v : Nat) : SlotRead :=
  match v / 2 ^ 43 with
  | 0 => nopRead v 0x04
  | 1 => .ok (some (.mmx c (fieldAt v 0)))
  | 2 => .ok (some (.mmxe c (fieldAt v 0)))
  | 3 => .ok (some (.mclr c (fieldAt v 0)))
  | 4 => .ok (some (.mdrn c (fieldAt v 0)))
  | 5 => .ok (some (.mraw c (fieldAt v 0)))
  | 6 => .ok (some (.mimg c (fieldAt v 0)))
  | 7 => .ok (some (.mchk c (fieldAt v 0)))
  | _ => .error 0x04

/-- A vfn by its function code (Table 5.5). -/
def decodeVfn (c : CoreId) (v : Nat) : SlotRead :=
  match v % 16 with
  | 0 => .ok (some (.vfnExp2 c (fieldAt v 4)))
  | 1 => .ok (some (.vfnLog2 c (fieldAt v 4)))
  | 2 => .ok (some (.vfnReciprocal c (fieldAt v 4)))
  | 3 => .ok (some (.vfnRsqrt c (fieldAt v 4)))
  | 4 => .ok (some (.vfnTanh c (fieldAt v 4)))
  | 5 => .ok (some (.vfnSigmoid c (fieldAt v 4)))
  | 6 => .ok (some (.vfnSilu c (fieldAt v 4)))
  | 7 => .ok (some (.vfnGelu c (fieldAt v 4)))
  | 8 => .ok (some (.vfnSin c (fieldAt v 4)))
  | 9 => .ok (some (.vfnCos c (fieldAt v 4)))
  | _ => .error 0x05

/-- The V slot (Tables 5.2, 8.2); a vred of kind 5 is the prefix sum (Table 5.3). -/
def decodeV (c : CoreId) (v : Nat) : SlotRead :=
  match v / 2 ^ 42 with
  | 0 => nopRead v 0x05
  | 0x01 => .ok (some (.vadd c (fieldAt v 0)))
  | 0x02 => .ok (some (.vsub c (fieldAt v 0)))
  | 0x03 => .ok (some (.vmul c (fieldAt v 0)))
  | 0x04 => .ok (some (.vfma c (fieldAt v 0)))
  | 0x05 => .ok (some (.vfnma c (fieldAt v 0)))
  | 0x06 => .ok (some (.vmin c (fieldAt v 0)))
  | 0x07 => .ok (some (.vmax c (fieldAt v 0)))
  | 0x08 => .ok (some (.vabs c (fieldAt v 0)))
  | 0x09 => .ok (some (.vneg c (fieldAt v 0)))
  | 0x0a => .ok (some (.vcmp c (fieldAt v 0)))
  | 0x0b => .ok (some (.vsel c (fieldAt v 0)))
  | 0x0c => .ok (some (.vand c (fieldAt v 0)))
  | 0x0d => .ok (some (.vor c (fieldAt v 0)))
  | 0x0e => .ok (some (.vxor c (fieldAt v 0)))
  | 0x0f => .ok (some (.vsll c (fieldAt v 0)))
  | 0x10 => .ok (some (.vsrl c (fieldAt v 0)))
  | 0x11 => .ok (some (.vsra c (fieldAt v 0)))
  | 0x12 => .ok (some (.vmov c (fieldAt v 0)))
  | 0x13 => decodeVfn c v
  | 0x14 => .ok (some (.vrand c (fieldAt v 0)))
  | 0x18 => .ok (some (.vcvt c (fieldAt v 0)))
  | 0x19 => .ok (some (.vbenc c (fieldAt v 0)))
  | 0x1a => .ok (some (.vbpack c (fieldAt v 0)))
  | 0x1b => .ok (some (.vbunpk c (fieldAt v 0)))
  | 0x1c => .ok (some (if v / 2 ^ 27 % 8 = 5 then .vredPrefix c (fieldAt v 0) else .vred c (fieldAt v 0)))
  | 0x1d => .ok (some (.vtopk c (fieldAt v 0)))
  | 0x20 => .ok (some (.umom c (fieldAt v 0)))
  | 0x21 => .ok (some (.usgd c (fieldAt v 0)))
  | 0x22 => .ok (some (.uadm1 c (fieldAt v 0)))
  | 0x23 => .ok (some (.uadm2 c (fieldAt v 0)))
  | 0x24 => .ok (some (.uadp c (fieldAt v 0)))
  | 0x25 => .ok (some (.ukst c (fieldAt v 0)))
  | 0x26 => .ok (some (.ukns c (fieldAt v 0)))
  | 0x27 => .ok (some (.ukap c (fieldAt v 0)))
  | _ => .error 0x05

/-- The S slot (Table 2.9). -/
def decodeS (c : CoreId) (v : Nat) : SlotRead :=
  match v / 2 ^ 28 with
  | 0 => nopRead v 0x08
  | 1 => .ok (some (.sget c (fieldAt v 23) (fieldAt v 19) (flagAt v 18) (fieldAt v 0) .clean))
  | 2 => .ok (some (.sput c (fieldAt v 23) (fieldAt v 19) (flagAt v 18) (fieldAt v 0)))
  | 3 => .ok (some (.sdue c (fieldAt v 23) (fieldAt v 19) (flagAt v 18) (fieldAt v 0)))
  | 4 => .ok (some (.srel c (fieldAt v 23) (fieldAt v 19) (flagAt v 18) (fieldAt v 0)))
  | 5 => .ok (some (.sdrain c (fieldAt v 23) (fieldAt v 19) (flagAt v 18) (fieldAt v 0)))
  | _ => .error 0x06

/-- The X slot (Table 2.11). -/
def decodeX (c : CoreId) (v : Nat) : SlotRead :=
  match v / 2 ^ 28 with
  | 0 => nopRead v 0x08
  | 1 => .ok (some (.send c (fieldAt v 22) (flagAt v 21) (fieldAt v 0)))
  | 2 => .ok (some (.recv c (fieldAt v 24) (flagAt v 23) (fieldAt v 18) (fieldAt v 16) (fieldAt v 0)))
  | 3 => .ok (some (.xSel c (fieldAt v 12) (flagAt v 11) (flagAt v 10) (fieldAt v 5) (fieldAt v 1) (fieldAt v 0)))
  | 4 => .ok (some (.wait c (fieldAt v 16) (fieldAt v 12) (flagAt v 11) (fieldAt v 0)))
  | 5 => .ok (some (.signal c (fieldAt v 16) (fieldAt v 0)))
  | 6 => .ok (some (.couple c (fieldAt v 22) (fieldAt v 0)))
  | 7 => .ok (some (.uncouple c (fieldAt v 22) (fieldAt v 0)))
  | _ => .error 0x07

/-- The seven slot words of a row word, P first (Table 2.1). -/
def rowSlots (w : BitVec 256) : List Nat :=
  let v := w.toNat
  [v / 2 ^ 224, v / 2 ^ 192 % 2 ^ 32, v / 2 ^ 160 % 2 ^ 32, v / 2 ^ 112 % 2 ^ 48, v / 2 ^ 64 % 2 ^ 48, v / 2 ^ 32 % 2 ^ 32, v % 2 ^ 32]

/-- What each slot of a row word spells, P first. -/
def decodeRow (c : CoreId) (w : BitVec 256) : List SlotRead :=
  match rowSlots w with
  | [p, q, l, m, v, s, x] => [decodeP c p, decodeC c q, decodeL c l, decodeM c m, decodeV c v, decodeS c s, decodeX c x]
  | _ => []

/-! ### Encoding: the slot word of an instruction, from the same tables -/

/-- Fields at their lowest bits, as one number. -/
def packed : List (Nat × Nat) → Nat
  | [] => 0
  | (v, p) :: r => v * 2 ^ p + packed r

/-- A one-bit field as a number. -/
def flagBit (b : Bool) : Nat :=
  if b then 1 else 0

/-- The instruction as its word alone gives it: what the access will meet in the array is not in the word. -/
def Instr.clean (i : Instr) : Instr :=
  match i with
  | .load c ind kind reg gi addr _ => .load c ind kind reg gi addr .clean
  | .accPreload c ind reg gi addr _ => .accPreload c ind reg gi addr .clean
  | .sget c ring gi greg disp _ => .sget c ring gi greg disp .clean
  | i => i

/-- The slot that holds an instruction, 0 = P to 6 = X, and its word there; none for a row of the table that is no instruction of a
slot. What an access meets in the array (Ecc) is no part of a word. -/
def encodeSlot : Instr → Option (Nat × Nat)
  | .loop _ lvl src gi rsv len => some (0, packed [(1, 28), (lvl.toNat, 26), (flagBit src, 25), (gi.toNat, 21), (rsv.toNat, 12), (len.toNat, 0)])
  | .setc _ lvl rsv cnt => some (0, packed [(2, 28), (lvl.toNat, 26), (rsv.toNat, 24), (cnt.toNat, 0)])
  | .skip _ gi sense mask rsv win => some (0, packed [(3, 28), (gi.toNat, 24), (flagBit sense, 23), (mask.toNat, 17), (rsv.toNat, 6), (win.toNat, 0)])
  | .step _ rsv => some (0, packed [(4, 28), (rsv.toNat, 0)])
  | .done _ rsv => some (0, packed [(5, 28), (rsv.toNat, 0)])
  | .hlt _ gi sense rsv reason => some (0, packed [(6, 28), (gi.toNat, 24), (flagBit sense, 23), (rsv.toNat, 8), (reason.toNat, 0)])
  | .add _ rd rs1 rs2 rsv => some (1, packed [(0x01, 26), (rd.toNat, 22), (rs1.toNat, 18), (rs2.toNat, 14), (rsv.toNat, 0)])
  | .sub _ rd rs1 rs2 rsv => some (1, packed [(0x02, 26), (rd.toNat, 22), (rs1.toNat, 18), (rs2.toNat, 14), (rsv.toNat, 0)])
  | .mul _ rd rs1 rs2 rsv => some (1, packed [(0x03, 26), (rd.toNat, 22), (rs1.toNat, 18), (rs2.toNat, 14), (rsv.toNat, 0)])
  | .mulh _ rd rs1 rs2 rsv => some (1, packed [(0x04, 26), (rd.toNat, 22), (rs1.toNat, 18), (rs2.toNat, 14), (rsv.toNat, 0)])
  | .mulhu _ rd rs1 rs2 rsv => some (1, packed [(0x05, 26), (rd.toNat, 22), (rs1.toNat, 18), (rs2.toNat, 14), (rsv.toNat, 0)])
  | .min _ rd rs1 rs2 rsv => some (1, packed [(0x06, 26), (rd.toNat, 22), (rs1.toNat, 18), (rs2.toNat, 14), (rsv.toNat, 0)])
  | .max _ rd rs1 rs2 rsv => some (1, packed [(0x07, 26), (rd.toNat, 22), (rs1.toNat, 18), (rs2.toNat, 14), (rsv.toNat, 0)])
  | .and _ rd rs1 rs2 rsv => some (1, packed [(0x08, 26), (rd.toNat, 22), (rs1.toNat, 18), (rs2.toNat, 14), (rsv.toNat, 0)])
  | .or _ rd rs1 rs2 rsv => some (1, packed [(0x09, 26), (rd.toNat, 22), (rs1.toNat, 18), (rs2.toNat, 14), (rsv.toNat, 0)])
  | .xor _ rd rs1 rs2 rsv => some (1, packed [(0x0a, 26), (rd.toNat, 22), (rs1.toNat, 18), (rs2.toNat, 14), (rsv.toNat, 0)])
  | .sll _ rd rs1 rs2 rsv => some (1, packed [(0x0b, 26), (rd.toNat, 22), (rs1.toNat, 18), (rs2.toNat, 14), (rsv.toNat, 0)])
  | .srl _ rd rs1 rs2 rsv => some (1, packed [(0x0c, 26), (rd.toNat, 22), (rs1.toNat, 18), (rs2.toNat, 14), (rsv.toNat, 0)])
  | .sra _ rd rs1 rs2 rsv => some (1, packed [(0x0d, 26), (rd.toNat, 22), (rs1.toNat, 18), (rs2.toNat, 14), (rsv.toNat, 0)])
  | .seq _ rd rs1 rs2 rsv => some (1, packed [(0x0e, 26), (rd.toNat, 22), (rs1.toNat, 18), (rs2.toNat, 14), (rsv.toNat, 0)])
  | .sne _ rd rs1 rs2 rsv => some (1, packed [(0x0f, 26), (rd.toNat, 22), (rs1.toNat, 18), (rs2.toNat, 14), (rsv.toNat, 0)])
  | .slt _ rd rs1 rs2 rsv => some (1, packed [(0x10, 26), (rd.toNat, 22), (rs1.toNat, 18), (rs2.toNat, 14), (rsv.toNat, 0)])
  | .sltu _ rd rs1 rs2 rsv => some (1, packed [(0x11, 26), (rd.toNat, 22), (rs1.toNat, 18), (rs2.toNat, 14), (rsv.toNat, 0)])
  | .sel _ rd rs1 rs2 rsv => some (1, packed [(0x12, 26), (rd.toNat, 22), (rs1.toNat, 18), (rs2.toNat, 14), (rsv.toNat, 0)])
  | .clz _ rd rs1 rs2 rsv => some (1, packed [(0x13, 26), (rd.toNat, 22), (rs1.toNat, 18), (rs2.toNat, 14), (rsv.toNat, 0)])
  | .popc _ rd rs1 rs2 rsv => some (1, packed [(0x14, 26), (rd.toNat, 22), (rs1.toNat, 18), (rs2.toNat, 14), (rsv.toNat, 0)])
  | .addi _ rd rs1 imm => some (1, packed [(0x18, 26), (rd.toNat, 22), (rs1.toNat, 18), (imm.toNat, 0)])
  | .andi _ rd rs1 imm => some (1, packed [(0x19, 26), (rd.toNat, 22), (rs1.toNat, 18), (imm.toNat, 0)])
  | .ori _ rd rs1 imm => some (1, packed [(0x1a, 26), (rd.toNat, 22), (rs1.toNat, 18), (imm.toNat, 0)])
  | .xori _ rd rs1 imm => some (1, packed [(0x1b, 26), (rd.toNat, 22), (rs1.toNat, 18), (imm.toNat, 0)])
  | .slli _ rd rs1 imm => some (1, packed [(0x1c, 26), (rd.toNat, 22), (rs1.toNat, 18), (imm.toNat, 0)])
  | .srli _ rd rs1 imm => some (1, packed [(0x1d, 26), (rd.toNat, 22), (rs1.toNat, 18), (imm.toNat, 0)])
  | .srai _ rd rs1 imm => some (1, packed [(0x1e, 26), (rd.toNat, 22), (rs1.toNat, 18), (imm.toNat, 0)])
  | .seqi _ rd rs1 imm => some (1, packed [(0x1f, 26), (rd.toNat, 22), (rs1.toNat, 18), (imm.toNat, 0)])
  | .slti _ rd rs1 imm => some (1, packed [(0x20, 26), (rd.toNat, 22), (rs1.toNat, 18), (imm.toNat, 0)])
  | .sltiu _ rd rs1 imm => some (1, packed [(0x21, 26), (rd.toNat, 22), (rs1.toNat, 18), (imm.toNat, 0)])
  | .li _ rd imm => some (1, packed [(0x22, 26), (rd.toNat, 22), (imm.toNat, 0)])
  | .lui _ rd imm => some (1, packed [(0x23, 26), (rd.toNat, 22), (imm.toNat, 0)])
  | .lw _ rd base off => some (1, packed [(0x28, 26), (rd.toNat, 22), (base.toNat, 18), (off.toNat, 0)])
  | .lh _ rd base off => some (1, packed [(0x29, 26), (rd.toNat, 22), (base.toNat, 18), (off.toNat, 0)])
  | .lhu _ rd base off => some (1, packed [(0x2a, 26), (rd.toNat, 22), (base.toNat, 18), (off.toNat, 0)])
  | .lb _ rd base off => some (1, packed [(0x2b, 26), (rd.toNat, 22), (base.toNat, 18), (off.toNat, 0)])
  | .lbu _ rd base off => some (1, packed [(0x2c, 26), (rd.toNat, 22), (base.toNat, 18), (off.toNat, 0)])
  | .sw _ rd base off => some (1, packed [(0x2d, 26), (rd.toNat, 22), (base.toNat, 18), (off.toNat, 0)])
  | .sh _ rd base off => some (1, packed [(0x2e, 26), (rd.toNat, 22), (base.toNat, 18), (off.toNat, 0)])
  | .sb _ rd base off => some (1, packed [(0x2f, 26), (rd.toNat, 22), (base.toNat, 18), (off.toNat, 0)])
  | .mte _ gi addr rsv => some (1, packed [(0x30, 26), (gi.toNat, 22), (addr.toNat, 12), (rsv.toNat, 0)])
  | .mfe _ gi addr rsv => some (1, packed [(0x31, 26), (gi.toNat, 22), (addr.toNat, 12), (rsv.toNat, 0)])
  | .mtc _ lvl gi rsv => some (1, packed [(0x32, 26), (lvl.toNat, 24), (gi.toNat, 20), (rsv.toNat, 0)])
  | .mfl _ lvl gi rsv => some (1, packed [(0x33, 26), (lvl.toNat, 24), (gi.toNat, 20), (rsv.toNat, 0)])
  | .rdt _ rd sel rsv => some (1, packed [(0x34, 26), (rd.toNat, 22), (sel.toNat, 19), (rsv.toNat, 0)])
  | .load _ ind kind reg gi addr _ => some (2, packed [(1 + flagBit ind, 28), (kind.toNat, 25), (reg.toNat, 20), (gi.toNat, 16), (addr.toNat, 0)])
  | .accPreload _ ind reg gi addr _ => some (2, packed [(1 + flagBit ind, 28), (4, 25), (reg.toNat, 20), (gi.toNat, 16), (addr.toNat, 0)])
  | .store _ ind kind reg gi addr => some (2, packed [(3 + flagBit ind, 28), (kind.toNat, 25), (reg.toNat, 20), (gi.toNat, 16), (addr.toNat, 0)])
  | .mmx _ w => some (3, packed [(1, 43), (w.toNat, 0)])
  | .mmxe _ w => some (3, packed [(2, 43), (w.toNat, 0)])
  | .mclr _ w => some (3, packed [(3, 43), (w.toNat, 0)])
  | .mdrn _ w => some (3, packed [(4, 43), (w.toNat, 0)])
  | .mraw _ w => some (3, packed [(5, 43), (w.toNat, 0)])
  | .mimg _ w => some (3, packed [(6, 43), (w.toNat, 0)])
  | .mchk _ w => some (3, packed [(7, 43), (w.toNat, 0)])
  | .vadd _ w => some (4, packed [(0x01, 42), (w.toNat, 0)])
  | .vsub _ w => some (4, packed [(0x02, 42), (w.toNat, 0)])
  | .vmul _ w => some (4, packed [(0x03, 42), (w.toNat, 0)])
  | .vfma _ w => some (4, packed [(0x04, 42), (w.toNat, 0)])
  | .vfnma _ w => some (4, packed [(0x05, 42), (w.toNat, 0)])
  | .vmin _ w => some (4, packed [(0x06, 42), (w.toNat, 0)])
  | .vmax _ w => some (4, packed [(0x07, 42), (w.toNat, 0)])
  | .vabs _ w => some (4, packed [(0x08, 42), (w.toNat, 0)])
  | .vneg _ w => some (4, packed [(0x09, 42), (w.toNat, 0)])
  | .vcmp _ w => some (4, packed [(0x0a, 42), (w.toNat, 0)])
  | .vsel _ w => some (4, packed [(0x0b, 42), (w.toNat, 0)])
  | .vand _ w => some (4, packed [(0x0c, 42), (w.toNat, 0)])
  | .vor _ w => some (4, packed [(0x0d, 42), (w.toNat, 0)])
  | .vxor _ w => some (4, packed [(0x0e, 42), (w.toNat, 0)])
  | .vsll _ w => some (4, packed [(0x0f, 42), (w.toNat, 0)])
  | .vsrl _ w => some (4, packed [(0x10, 42), (w.toNat, 0)])
  | .vsra _ w => some (4, packed [(0x11, 42), (w.toNat, 0)])
  | .vmov _ w => some (4, packed [(0x12, 42), (w.toNat, 0)])
  | .vrand _ w => some (4, packed [(0x14, 42), (w.toNat, 0)])
  | .vcvt _ w => some (4, packed [(0x18, 42), (w.toNat, 0)])
  | .vbenc _ w => some (4, packed [(0x19, 42), (w.toNat, 0)])
  | .vbpack _ w => some (4, packed [(0x1a, 42), (w.toNat, 0)])
  | .vbunpk _ w => some (4, packed [(0x1b, 42), (w.toNat, 0)])
  | .vtopk _ w => some (4, packed [(0x1d, 42), (w.toNat, 0)])
  | .umom _ w => some (4, packed [(0x20, 42), (w.toNat, 0)])
  | .usgd _ w => some (4, packed [(0x21, 42), (w.toNat, 0)])
  | .uadm1 _ w => some (4, packed [(0x22, 42), (w.toNat, 0)])
  | .uadm2 _ w => some (4, packed [(0x23, 42), (w.toNat, 0)])
  | .uadp _ w => some (4, packed [(0x24, 42), (w.toNat, 0)])
  | .ukst _ w => some (4, packed [(0x25, 42), (w.toNat, 0)])
  | .ukns _ w => some (4, packed [(0x26, 42), (w.toNat, 0)])
  | .ukap _ w => some (4, packed [(0x27, 42), (w.toNat, 0)])
  | .vfnExp2 _ w => some (4, packed [(0x13, 42), (w.toNat, 4), (0, 0)])
  | .vfnLog2 _ w => some (4, packed [(0x13, 42), (w.toNat, 4), (1, 0)])
  | .vfnReciprocal _ w => some (4, packed [(0x13, 42), (w.toNat, 4), (2, 0)])
  | .vfnRsqrt _ w => some (4, packed [(0x13, 42), (w.toNat, 4), (3, 0)])
  | .vfnTanh _ w => some (4, packed [(0x13, 42), (w.toNat, 4), (4, 0)])
  | .vfnSigmoid _ w => some (4, packed [(0x13, 42), (w.toNat, 4), (5, 0)])
  | .vfnSilu _ w => some (4, packed [(0x13, 42), (w.toNat, 4), (6, 0)])
  | .vfnGelu _ w => some (4, packed [(0x13, 42), (w.toNat, 4), (7, 0)])
  | .vfnSin _ w => some (4, packed [(0x13, 42), (w.toNat, 4), (8, 0)])
  | .vfnCos _ w => some (4, packed [(0x13, 42), (w.toNat, 4), (9, 0)])
  | .vred _ w => some (4, packed [(0x1c, 42), (w.toNat, 0)])
  | .vredPrefix _ w => some (4, packed [(0x1c, 42), (w.toNat, 0)])
  | .sget _ ring gi greg disp _ => some (5, packed [(1, 28), (ring.toNat, 23), (gi.toNat, 19), (flagBit greg, 18), (disp.toNat, 0)])
  | .sput _ ring gi greg disp => some (5, packed [(2, 28), (ring.toNat, 23), (gi.toNat, 19), (flagBit greg, 18), (disp.toNat, 0)])
  | .sdue _ ring gi greg disp => some (5, packed [(3, 28), (ring.toNat, 23), (gi.toNat, 19), (flagBit greg, 18), (disp.toNat, 0)])
  | .srel _ ring gi greg disp => some (5, packed [(4, 28), (ring.toNat, 23), (gi.toNat, 19), (flagBit greg, 18), (disp.toNat, 0)])
  | .sdrain _ ring gi greg disp => some (5, packed [(5, 28), (ring.toNat, 23), (gi.toNat, 19), (flagBit greg, 18), (disp.toNat, 0)])
  | .send _ conn src lo => some (6, packed [(1, 28), (conn.toNat, 22), (flagBit src, 21), (lo.toNat, 0)])
  | .recv _ qn dst vd rsv unit => some (6, packed [(2, 28), (qn.toNat, 24), (flagBit dst, 23), (vd.toNat, 18), (rsv.toNat, 16), (unit.toNat, 0)])
  | .xSel _ mask pol dst vd gi rsv => some (6, packed [(3, 28), (mask.toNat, 12), (flagBit pol, 11), (flagBit dst, 10), (vd.toNat, 5), (gi.toNat, 1), (rsv.toNat, 0)])
  | .wait _ obj gi mode rsv => some (6, packed [(4, 28), (obj.toNat, 16), (gi.toNat, 12), (flagBit mode, 11), (rsv.toNat, 0)])
  | .signal _ obj inc => some (6, packed [(5, 28), (obj.toNat, 16), (inc.toNat, 0)])
  | .couple _ conn rsv => some (6, packed [(6, 28), (conn.toNat, 22), (rsv.toNat, 0)])
  | .uncouple _ conn rsv => some (6, packed [(7, 28), (conn.toNat, 22), (rsv.toNat, 0)])
  | _ => none

/-- The bits of each slot of a row word (Table 2.1). -/
def slotWidth : Nat → Nat
  | 3 => 48
  | 4 => 48
  | _ => 32

/-- What a word of a slot spells. -/
def decodeSlot (c : CoreId) : Nat → Nat → SlotRead
  | 0, v => decodeP c v
  | 1, v => decodeC c v
  | 2, v => decodeL c v
  | 3, v => decodeM c v
  | 4, v => decodeV c v
  | 5, v => decodeS c v
  | _, v => decodeX c v

/-- A row word of seven slot words, P first (Table 2.1). -/
def rowWord (p q l m v s x : Nat) : BitVec 256 :=
  BitVec.ofNat 256 (packed [(p, 224), (q, 192), (l, 160), (m, 112), (v, 64), (s, 32), (x, 0)])

/-- The command a word of the table spells: the table gives no row bits, so there is none. -/
def decodeTableWord (_nbits _w : Nat) : Option Instr :=
  none

end Sys2Proof
end

