-- ==== Sys2Proof/Machine/Matrix.lean ====
section
/-! DEFINITION. Matrix: the M slot (R79-R100), the check lane (R101-R105) and ballast (R106). -/

namespace Sys2Proof.Machine

/-! ### Operand pairs (Table 4.2) -/

/-- The element formats of an operand unit (Table 4.1). -/
inductive Elem where
  | int8 | int4 | sb8 | sb4 | e4m3 | e5m2 | bf16 | fp16
deriving DecidableEq, Repr

/-- Shared and lane formats of a pair; none for a reserved code. -/
def pairOf (fmt : Nat) : Option (Elem × Elem) :=
  match fmt with
  | 0x1 => some (.int8, .int8)
  | 0x2 => some (.sb8, .sb8)
  | 0x3 => some (.e4m3, .e4m3)
  | 0x4 => some (.e4m3, .e5m2)
  | 0x5 => some (.e5m2, .e4m3)
  | 0x6 => some (.e5m2, .e5m2)
  | 0x7 => some (.int4, .int4)
  | 0x8 => some (.sb4, .sb4)
  | 0x9 => some (.sb8, .sb4)
  | 0xA => some (.int8, .int4)
  | 0xB => some (.bf16, .bf16)
  | 0xC => some (.fp16, .fp16)
  | _ => none

/-- The block length of a pair. -/
def pairN (fmt : Nat) : Nat :=
  if fmt = 0x7 ∨ fmt = 0x8 then 64 else if fmt = 0xB ∨ fmt = 0xC then 16 else 32

/-- The multiplier cycles of an mmxe (Table 4.2). -/
def exactCycles (fmt : Nat) : Nat :=
  if fmt = 0x7 ∨ fmt = 0x8 then 8 else if fmt = 0xB ∨ fmt = 0xC then 16 else 4

/-- Whether a pair reads scales (R82). -/
def scaled (fmt : Nat) : Bool :=
  decide (fmt = 0x2 ∨ fmt = 0x8 ∨ fmt = 0x9)

/-- The raw bits of element k of a unit (Table 4.1). -/
def elemRaw (e : Elem) (u : List Byte) (k : Nat) : Nat :=
  match e with
  | .int4 => bits (fld u (k / 2) 1) (4 * (k % 2)) 4
  | .sb4 => bits (fld u (k / 2) 1) (4 * (k % 2)) 4
  | .bf16 => fld u (2 * k) 2
  | .fp16 => fld u (2 * k) 2
  | _ => fld u k 1

/-- An n-bit two's-complement integer. -/
def sint (n v : Nat) : Int :=
  if v < 2 ^ (n - 1) then v else (v : Int) - 2 ^ n

/-- The exact value of an element under its scale byte; none for NaN and infinities (R58, R59, R67). -/
def elemVal (e : Elem) (scale v : Nat) : Option Dy :=
  match e with
  | .int8 => some ⟨sint 8 v, 0⟩
  | .int4 => some ⟨sint 4 v, 0⟩
  | .sb8 => (blockElem 8 scale (sint 8 v)).dy
  | .sb4 => (blockElem 4 scale (sint 4 v)).dy
  | .e4m3 => (decodeF e4m3 v).dy
  | .e5m2 => (decodeF e5m2 v).dy
  | .bf16 => (decodeF bf16 v).dy
  | .fp16 => (decodeF fp16 v).dy

/-- The values of n elements of a unit from element `lo`. -/
def unitVals (e : Elem) (scale lo n : Nat) (u : List Byte) : List (Option Dy) :=
  (List.range n).map fun k => elemVal e scale (elemRaw e u (lo + k))

/-! ### Multiply fields (Table 4.3) -/

/-- The fields of an mmx or mmxe. -/
structure MulF where
  fmt   : Nat
  ssrc  : Bool
  lsrc  : Bool
  tgt   : Nat
  slot  : Nat
  vs    : Nat
  slice : Nat
  half  : Nat
  sv    : Nat
  lb    : Nat
  bi    : Nat
  rsv   : Nat
deriving DecidableEq, Repr

def mulF (w : BitVec 43) : MulF :=
  let v := w.toNat
  { fmt := bits v 39 4, ssrc := bit v 38, lsrc := bit v 37, tgt := bits v 33 4, slot := bits v 29 4, vs := bits v 24 5,
    slice := bits v 20 4, half := bits v 19 1, sv := bits v 14 5, lb := bits v 12 2, bi := bits v 3 9, rsv := bits v 0 3 }

/-- A multiply's encoding is invalid (R84). -/
def mulBad (f : MulF) (exact : Bool) : Bool :=
  (pairOf f.fmt).isNone || decide (f.rsv ≠ 0) || (!f.lsrc && decide (f.slot ≠ 0)) || (f.ssrc && decide (f.vs ≠ 0 ∨ f.slice ≠ 0)) ||
    (decide (f.half ≠ 0) && !decide (f.fmt = 0x9 ∨ f.fmt = 0xA)) ||
    (!scaled f.fmt && decide (f.sv ≠ 0 ∨ f.lb ≠ 0 ∨ f.bi ≠ 0)) || (exact && decide (f.tgt % 4 ≠ 0))

/-- The conditions of an mmx or mmxe (R84, R86, R92). -/
def mulFault (k : Core) (now : Nat) (w : BitVec 43) (exact : Bool) : Option Nat :=
  let f := mulF w
  if mulBad f exact || (groupOf k (f.tgt / 4)).exact != exact || decide (now < k.busyTill) then some 0x04 else none

/-! ### Multiplying -/

/-- The 32-byte shared block (R81). -/
def sharedUnit (k : Core) (f : MulF) : List Byte :=
  if f.ssrc then padTo 32 k.bcast else slice (bytesOf (vReg k f.vs)) (32 * f.slice) 32

/-- The 4 KiB lane operand (R81). -/
def laneUnits (k : Core) (f : MulF) : List Byte :=
  padTo 4096 (if f.lsrc then tabGet k.laneSt [] f.slot else k.laneOp)

/-- The shared scale byte and the lane scale bytes (R82). -/
def scalesOf (k : Core) (f : MulF) : Nat × List Nat :=
  if scaled f.fmt then
    let b := bytesOf (vReg k f.sv)
    (fld b f.bi 1, (List.range 128).map fun i => fld b (4 * i + f.lb) 1)
  else (0, [])

/-- The shared values and each lane's values (R79, R83). -/
def mulVals (k : Core) (f : MulF) : List (Option Dy) × List (List (Option Dy)) :=
  let p := (pairOf f.fmt).getD (.int8, .int8)
  let sc := scalesOf k f
  let n := pairN f.fmt
  let units := laneUnits k f
  (unitVals p.1 sc.1 0 n (sharedUnit k f),
    (List.range 128).map fun i => unitVals p.2 (sc.2.getD i 0) (32 * f.half) n (slice units (32 * i) 32))

/-- The exact product of two elements; none is NaN (R66, R67). -/
def prodOf (a b : Option Dy) : Option Dy :=
  match a, b with
  | some x, some y => some (dyMul x y)
  | _, _ => none

/-- The check row of the lane operand register (R102). -/
def rowOf (lanes : List (List (Option Dy))) (n : Nat) : List Nat :=
  (List.range n).map fun k => rho (dySum (lanes.filterMap fun l => (l.getD k none)))

/-- The check lane's C (R103). -/
def checkC (shared : List (Option Dy)) (row : List Nat) : Nat :=
  (List.zipWith (fun v c => match v with | some d => rho d * c | none => 0) shared row).sum % chkP

/-- The engine's L (R103). -/
def checkL (prods : List (List (Option Dy))) : Nat :=
  (prods.map fun l => rho (dySum (l.filterMap id))).sum % chkP

/-- What the verdict of a multiply needs (R103, Table 12.7). A mixed pair's positions are those of its lane half (R83, R101). -/
def checkOf (k : Core) (f : MulF) (shared : List (Option Dy)) (lanes prods : List (List (Option Dy))) : CheckInfo :=
  let sc := scalesOf k f
  { evaluated := shared.all Option.isSome && lanes.all (fun l => l.all Option.isSome) &&
      !(scaled f.fmt && (sc.1 == 0xFF || sc.2.any (· == 0xFF)))
    c := checkC shared (if f.lsrc then (tabGet k.chkSt [] f.slot).drop (32 * f.half) else rowOf lanes (pairN f.fmt))
    l := checkL prods
    shared := sharedUnit k f
    lane := laneUnits k f
    laneScales := sc.2.map (BitVec.ofNat 8)
    scales := sc.1 + 256 * f.lb }

/-- Issue to update, in schedule cycles (Table 4.4). -/
def updLat (k : Core) : Nat :=
  if k.profile = 2 then 12 else 14

/-- An operation enters the M pipe. -/
def mPush (op : MOp) (check : Option CheckInfo) (due : Nat) (o : Origin) (k : Core) : Core :=
  { k with mPipe := k.mPipe ++ [⟨due, op, check, o⟩] }

/-- The effect of a multiply at issue (R79, R90, R92). -/
def mulIssue (k : Core) (now : Nat) (w : BitVec 43) (exact : Bool) : Core → Core :=
  let f := mulF w
  let v := mulVals k f
  let prods := v.2.map fun l => List.zipWith prodOf v.1 l
  let op := if exact then MOp.exact (f.tgt / 4) prods else MOp.fast f.tgt (prods.map blockSum)
  let o := originOf k 3 ((if exact then 2 else 1) * 2 ^ 43 + w.toNat)
  fun x => mPush op (some (checkOf k f v.1 v.2 prods)) (now + updLat k) o
    { x with busyTill := now + if exact then exactCycles f.fmt else 1 }

/-- What a multiply reads at issue (R81, R82). -/
def mulReads (f : MulF) : List Src :=
  (if f.ssrc then Src.bcast else .vreg f.vs) :: (if f.lsrc then Src.laneSt f.slot else .laneOp) :: (if scaled f.fmt then [.vreg f.sv] else [])

/-- MMX (R79). -/
def execMmx (c : CoreId) (w : BitVec 43) (s : State) : Host.Outcome State Fault Refusal :=
  let k := startCore s c
  let now := (getCh s (chOf c)).sched
  .next (issue s c 3 (mulFault k now w false) fun s => updCore (readHazards s c 3 (mulReads (mulF w))) c (mulIssue k now w false))

/-- MMXE (R79). -/
def execMmxe (c : CoreId) (w : BitVec 43) (s : State) : Host.Outcome State Fault Refusal :=
  let k := startCore s c
  let now := (getCh s (chOf c)).sched
  .next (issue s c 3 (mulFault k now w true) fun s => updCore (readHazards s c 3 (mulReads (mulF w))) c (mulIssue k now w true))

/-! ### Mode changes (R87, R89) -/

/-- A group's mode set from the next cycle on; a change leaves it in transition until the update (R87). -/
def setMode (j : Nat) (exact : Bool) (till : Nat) (k : Core) : Core :=
  updGroup j (fun g => { g with exact := exact, transEnd := if g.exact = exact then g.transEnd else till }) k

/-- A word whose bits below `n` must be zero (R84). -/
def lowZero (w : BitVec 43) (n : Nat) : Option Nat :=
  if bits w.toNat 0 n = 0 then none else some 0x04

/-- MCLR (R87). -/
def execMclr (c : CoreId) (w : BitVec 43) (s : State) : Host.Outcome State Fault Refusal :=
  let k := startCore s c
  let now := (getCh s (chOf c)).sched
  let j := bits w.toNat 41 2
  let m := bit w.toNat 40
  .next (issue s c 3 (lowZero w 40) fun s => updCore s c fun x =>
    mPush (.clear j m (ebaseOf k j)) none (now + updLat k) (originOf k 3 (3 * 2 ^ 43 + w.toNat)) (setMode j m (now + updLat k) x))

/-- The images of the lane operand register; none where one is malformed (R89). -/
def laneImages (k : Core) : Option (List ExImg) :=
  let b := padTo 4096 k.laneOp
  (List.range 128).mapM fun i => imageOf (slice b (32 * i) 32)

/-- The conditions of an mimg (R84, R89). -/
def mimgFault (k : Core) (w : BitVec 43) : Option Nat :=
  match lowZero w 41 with
  | some r => some r
  | none => if (laneImages k).isNone then some 0x04 else none

/-- MIMG (R89). -/
def execMimg (c : CoreId) (w : BitVec 43) (s : State) : Host.Outcome State Fault Refusal :=
  let k := startCore s c
  let now := (getCh s (chOf c)).sched
  let j := bits w.toNat 41 2
  .next (issue s c 3 (mimgFault k w) fun s => updCore (readHazards s c 3 [.laneOp]) c fun x =>
    mPush (.image j ((laneImages k).getD [])) none (now + updLat k) (originOf k 3 (6 * 2 ^ 43 + w.toNat))
      (setMode j true (now + updLat k) x))

/-- The residues of a check row, bits [60:0] modulo p (R101). -/
def residuesOf (ws : List Word) : List Nat :=
  let b := bytesOf ws
  (List.range 64).map fun k => fld b (8 * k) 8 % 2 ^ 61 % chkP

/-- MCHK (R101). -/
def execMchk (c : CoreId) (w : BitVec 43) (s : State) : Host.Outcome State Fault Refusal :=
  let k := startCore s c
  .next (issue s c 3 (lowZero w 34) fun s => updCore (readHazards s c 3 [.vreg (bits w.toNat 38 5)]) c fun x =>
    { x with chkSt := tabSet x.chkSt (bits w.toNat 34 4) (residuesOf (vReg k (bits w.toNat 38 5))) })

/-! ### Drains (R94-R98) -/

/-- The fields of an mdrn (Table 4.3). -/
structure DrnF where
  src  : Nat
  fmt  : Nat
  sr   : Bool
  dst  : Bool
  vd   : Nat
  pos  : Nat
  spos : Nat
  q    : Int
  unit : Nat
deriving DecidableEq, Repr

def drnF (w : BitVec 43) : DrnF :=
  let v := w.toNat
  { src := bits v 39 4, fmt := bits v 35 4, sr := bit v 34, dst := bit v 33, vd := bits v 28 5, pos := bits v 26 2, spos := bits v 24 2,
    q := sint 8 (bits v 16 8), unit := bits v 0 16 }

/-- Block outputs (Table 4.5). -/
def isBlock (fmt : Nat) : Bool :=
  decide (7 ≤ fmt ∧ fmt ≤ 9)

/-- A group's contents are not yet those of its mode (R87). -/
def inTransit (k : Core) (j now : Nat) : Bool :=
  decide (now < (groupOf k j).transEnd)

/-- An output position that its format does not allow (Table 4.5). -/
def posBad (fmt pos : Nat) : Bool :=
  (decide (fmt = 0) && decide (pos ≠ 0)) || (decide (fmt = 1 ∨ fmt = 2) && decide (pos % 2 ≠ 0))

/-- The conditions of an mdrn (R84, R95, R96, R97). -/
def drnFault (s : State) (k : Core) (now : Nat) (w : BitVec 43) : Option Nat :=
  let f := drnF w
  let g := groupOf k (f.src / 4)
  if decide (10 ≤ f.fmt) || (f.sr && decide (f.fmt = 9)) || (isBlock f.fmt && decide (f.spos = f.pos)) ||
      (!isBlock f.fmt && decide (f.spos ≠ 0)) || (f.dst && decide (f.fmt ≠ 0 ∨ f.vd ≠ 0)) || (!f.dst && decide (f.unit ≠ 0)) ||
      (decide (f.q ≠ 0) && !decide (f.fmt = 5 ∨ f.fmt = 6)) || posBad f.fmt f.pos || inTransit k (f.src / 4) now ||
      (g.exact && decide (f.src % 4 ≠ 0)) ||
      (f.sr && (seedOf s k.job (bits (ecrGet k 0x10A).toNat 24 8)).isNone) then some 0x04
  else if f.dst then unitStoreFault k f.unit 16 else none

/-- The source value of each lane, and whether its window value saturated (R69, R94). -/
def drnVals (k : Core) (src : Nat) : List (FV × Bool) :=
  let g := groupOf k (src / 4)
  if g.exact then (exAccs g).map fun a =>
    let r := windowValue a.acc
    (match r.1 with | some t => fvOf ⟨t, a.ebase⟩ | none => .nan, r.2)
  else (fastAcc g (src % 4)).map fun w => (fv32 w, false)

/-- What a drain's read of its source compares in each lane (R104). -/
def drnRes (k : Core) (src : Nat) : List (Nat × Nat) :=
  let g := groupOf k (src / 4)
  if g.exact then exactResOf g else fastResOf g (src % 4)

/-- Bits placed at a byte or half of an element, with their mask. -/
def place (width shift v : Nat) : Word × Word :=
  (BitVec.ofNat 32 (v % 2 ^ width * 2 ^ shift), BitVec.ofNat 32 ((2 ^ width - 1) * 2 ^ shift))

/-- A signed value as a byte. -/
def byteOfInt (m : Int) : Nat :=
  (BitVec.ofInt 8 m).toNat

/-- One lane's element output under Table 4.5: the placed bits and the conversion. -/
def elemOut (fmt pos : Nat) (q : Int) (rnd : Rnd) (v : FV) : (Word × Word) × Bool × Bool :=
  let r := match fmt with
    | 0 => toF fp32 rnd v
    | 1 => toF bf16 rnd v
    | 2 => toF fp16 rnd v
    | 3 => toF e4m3 rnd v
    | 4 => toF e5m2 rnd v
    | 5 => toI 8 q rnd v
    | 6 => toI 4 q rnd v
    | _ => toI 32 q rnd v
  let w := match fmt with
    | 0 => place 32 0 r.bits
    | 1 => place 16 (8 * pos) r.bits
    | 2 => place 16 (8 * pos) r.bits
    | 6 => place 8 (8 * pos) (byteOfInt (sint 4 r.bits))
    | 10 => place 32 0 r.bits
    | _ => place 8 (8 * pos) r.bits
  (w, r.sat, r.nan)

/-- The two parts of a word merged. -/
def joinW (a b : Word × Word) : Word × Word :=
  (a.1 ||| b.1, a.2 ||| b.2)

/-- A value as integers: none for NaN, its sign for an infinity, sign, significand and exponent else. -/
def FV.code (v : FV) : List Int :=
  match v with
  | .nan => []
  | .inf s => [b2n s]
  | .fin s m e => [b2n s, m, e]

/-- The mantissa of an element of a NaN block: a free value of w bits that is not −2^(w−1) (R59; DESIGN CHOICE: assumption log, 35). -/
def nanMant (w : Nat) (vs : List FV) (i : Nat) : Int :=
  (Config.nanMant w (vs.map FV.code) i % (2 ^ w - 1) : Nat) - (2 ^ (w - 1) - 1)

/-- One block's output in split form: mantissas at a position, the scale byte at another; free mantissas for a NaN block (R65, R95). -/
def blockOut (w pos spos : Nat) (vs : List (FV × Rnd)) : List (Word × Word) × Bool × Bool :=
  let b := encodeBlock w vs
  let m := fun i => byteOfInt (if b.nan then nanMant w (vs.map (·.1)) i else b.mants.getD i 0)
  ((List.range vs.length).map fun i => joinW (place 8 (8 * pos) (m i)) (place 8 (8 * spos) b.scale), b.sat, b.nan)

/-- The mantissa width and lanes of a block output. -/
def blockShape (fmt : Nat) : Nat × Nat :=
  if fmt = 7 then (8, 32) else if fmt = 8 then (4, 64) else (6, 64)

/-- 128 lanes converted (Tables 3.4, 4.5): what each lane writes, SAT and NAN. -/
def convLanes (fmt pos spos : Nat) (q : Int) (vs : List (FV × Rnd)) : List (Word × Word) × Bool × Bool :=
  if isBlock fmt then
    let sh := blockShape fmt
    let bs := (chunksOf sh.2 128 vs).map (blockOut sh.1 pos spos)
    (bs.flatMap (·.1), bs.any (·.2.1), bs.any (·.2.2))
  else
    let r := vs.map fun v => elemOut fmt pos q v.2 v.1
    (r.map (·.1), r.any (·.2.1), r.any (·.2.2))

/-- The rounding of each lane (R97, R119): CG64 draws of a seed slot, or nearest-even. -/
def laneRnds (sr : Bool) (seed step stream idx : Nat) : List Rnd :=
  (List.range 128).map fun i => if sr then srOf (cg64 seed step stream ((128 * idx + i) % 2 ^ 32)) else .rne

/-- MDRN (R94-R97). -/
def execMdrn (c : CoreId) (w : BitVec 43) (s : State) : Host.Outcome State Fault Refusal :=
  let k := startCore s c
  let now := (getCh s (chOf c)).sched
  let f := drnF w
  .next (issue s c 3 (drnFault s k now w) fun s =>
    let ctl := (ecrGet k 0x10A).toNat
    let idx := (ecrGet k 0x10B).toNat
    let seed := (seedOf s k.job (bits ctl 24 8)).getD 0
    let rnds := laneRnds f.sr seed k.step (0x4D000000 + bits ctl 0 24) idx
    let vals := drnVals k f.src
    let s := readHazards s c 3 [if (groupOf k (f.src / 4)).exact then .group (f.src / 4) else .acc f.src]
    let r := convLanes f.fmt f.pos f.spos f.q (List.zipWith (fun v r => (v.1, r)) vals rnds)
    let it : VItem := ⟨now + if isBlock f.fmt then 10 else 8, f.vd, if f.dst then some f.unit else none, r.1,
      r.2.1 || vals.any (·.2), r.2.2, some (f.src / 4), drnRes k f.src, [], originOf k 3 (4 * 2 ^ 43 + w.toNat)⟩
    updCore s c fun x =>
      let x := { x with drains := x.drains ++ [it] }
      if f.sr then ecrSet 0x10B (BitVec.ofNat 32 (idx + 1)) x else x)

/-- The conditions of an mraw (R84, R98). -/
def mrawFault (k : Core) (now : Nat) (w : BitVec 43) : Option Nat :=
  let j := bits w.toNat 41 2
  if bits w.toNat 36 5 % 8 ≠ 0 ∨ bits w.toNat 0 36 ≠ 0 ∨ (groupOf k j).exact = false ∨ inTransit k j now = true then some 0x04 else none

/-- MRAW (R98). -/
def execMraw (c : CoreId) (w : BitVec 43) (s : State) : Host.Outcome State Fault Refusal :=
  let k := startCore s c
  let now := (getCh s (chOf c)).sched
  let j := bits w.toNat 41 2
  let vd := bits w.toNat 36 5
  .next (issue s c 3 (mrawFault k now w) fun s =>
    let g := groupOf k j
    let row := (exAccs g).flatMap imageBytes
    let o := originOf k 3 (5 * 2 ^ 43 + w.toNat)
    let items := (List.range 8).map fun m => (⟨now + 8, vd + m, none,
      (wordsOf (slice row (512 * m) 512)).map (fun x => (x, BitVec.allOnes 32)), false, false, some j,
      if m = 0 then exactResOf g else [], [], o⟩ : VItem)
    updCore (readHazards s c 3 [.group j]) c fun x => { x with drains := x.drains ++ items })

/-! ### Updates (R90) -/

/-- One fast update in every lane (R73): the accumulators, SAT, NAN. -/
def fastUpdate (acc : List Word) (sums : List BlockSum) : List Word × Bool × Bool :=
  let r := List.zipWith (fun a b => (fastAdd a b.bits, b)) acc sums
  (r.map fun x => BitVec.ofNat 32 x.1.bits, r.any (fun x => x.1.sat || x.2.sat), r.any (fun x => x.1.nan || x.2.nan))

/-- One exact update in every lane (R68): the accumulators, EXP_RANGE, NAN. -/
def exactUpdate (acc : List ExImg) (prods : List (List (Option Dy))) : List ExImg × Bool × Bool :=
  let r := List.zipWith (fun a l =>
    let x := l.foldl (exAdd a.ebase) (a.acc, false, false)
    ((⟨x.1, a.ebase⟩ : ExImg), x.2)) acc prods
  (r.map (·.1), r.any (·.2.1), r.any (·.2.2))

/-- The group an operation targets. -/
def MOp.group : MOp → Nat
  | .fast a _ => a / 4
  | .exact g _ => g
  | .clear g _ _ => g
  | .image g _ => g

/-- An update at its group: the group, SAT, EXP_RANGE, NAN (R87, R89, R90, R99). -/
def applyOp (g : Group) (op : MOp) : Group × Bool × Bool × Bool :=
  match op with
  | .fast a sums =>
    let r := fastUpdate (fastAcc g (a % 4)) sums
    (g.putFast (a % 4) r.1, r.2.1, false, r.2.2)
  | .exact _ prods =>
    let r := exactUpdate (exAccs g) prods
    (g.putExact r.1, false, r.2.1, r.2.2)
  | .clear _ _ eb => (({ g with fast := [], fastRes := [] }).putExact (List.replicate 128 ⟨ExAcc.reset, eb⟩), false, false, false)
  | .image _ imgs =>
    (g.putExact imgs, false,
      imgs.any (fun m => m.acc.pos || m.acc.neg || m.acc.ovf), false)

/-- What an update's read of its accumulator compares in each lane (R104). -/
def updateRes (g : Group) (op : MOp) : List (Nat × Nat) :=
  match op with
  | .fast a _ => fastResOf g (a % 4)
  | .exact _ _ => exactResOf g
  | _ => []

/-- One M instruction at its update stage. -/
def updateOne (c : CoreId) (s : State) (m : MItem) : State :=
  let j := m.op.group
  let g := groupOf (getCore s c) j
  let r := applyOp g m.op
  let s := updCore s c fun k =>
    let k := updGroup j (fun _ => r.1) k
    match m.check with
    | some i => { k with verdicts := k.verdicts ++ [⟨(getCh s (chOf c)).cycles + 22, j, some i, updateRes g m.op, m.org⟩] }
    | none => k
  raiseFlags s c 0x100 (4 * j) m.org r.2.1 r.2.2.1 r.2.2.2 false

/-- ACC_UPDATE (R90): the M instructions whose update stage is due, in issue order. -/
def execAccUpdate (c : CoreId) (s : State) : Host.Outcome State Fault Refusal :=
  let now := schedNow (getCh s (chOf c))
  let due := (getCore s c).mPipe.filter fun m => decide (m.due ≤ now)
  let s := updCore s c fun k => { k with mPipe := k.mPipe.filter fun m => decide (now < m.due) }
  .next (due.foldl (updateOne c) s)

/-! ### Verdicts (R103-R105) -/

/-- Where a read met a residue that differs from the stored one, in one lane by an error of the hardware (R104): the stored and the
computed residue of the first such lane. -/
def residueMiss (res : List (Nat × Nat)) (e : Resid) : Option (Nat × Nat) :=
  (res.mapIdx fun i r => (r.1, if i = e.lane.toNat then (r.2 + e.off.toNat) % 7 else r.2)).find? fun r => r.1 != r.2

/-- A failed check of an M instruction (R105): CHECK in its group, its half of MX_CHKFAIL, the signature and the revoke. -/
def matrixFailed (s : State) (c : CoreId) (v : Verdict) (shift reason : Nat) (f : Failure) : State :=
  let s := raiseFlags s c 0x100 (4 * v.grp) v.org false false false true
  checkFailed (updCore s c (ecrBump 0x10C shift)) c f reason false

/-- A failed verdict: C, and the lane sum L as formed (R103, Table 12.7). -/
def verdictFailed (s : State) (c : CoreId) (v : Verdict) (i : CheckInfo) (l : Nat) : State :=
  matrixFailed s c v 0 0x88 ⟨1, v.org, i.c, l, i.shared, i.scales, i.lane, i.laneScales⟩

/-- A residue mismatch: stored and computed residue (R104, Table 12.7). A drain has no lane operand: its signature's pattern is a free
value and its scales are zero (DESIGN CHOICE: assumption log, 35). -/
def residueFailed (s : State) (c : CoreId) (v : Verdict) (r : Nat × Nat) : State :=
  match v.info with
  | some i => matrixFailed s c v 16 0x89 ⟨2, v.org, r.1, r.2, [], i.scales, i.lane, i.laneScales⟩
  | none =>
    let d := drawFree s
    matrixFailed d.2 c v 16 0x89 ⟨2, v.org, r.1, r.2, [], 0, freeBytes d.1 4096, []⟩

/-- One verdict (R103, R104): the lane sum as formed, `disturb` away from L, against C; then the residues its update read. A drain's
report carries the residues that differed. -/
def judge (c : CoreId) (disturb : BitVec 61) (resid : Resid) (s : State) (v : Verdict) : State :=
  let s := match v.info with
    | some i =>
      let l := (i.l + disturb.toNat) % chkP
      if i.evaluated ∧ l ≠ i.c then verdictFailed s c v i l else s
    | none => s
  match residueMiss v.res (if v.info.isSome then resid else ⟨0, 0⟩) with
  | some r => residueFailed s c v r
  | none => s

/-- CHECK_VERDICT (R103-R105): the verdicts due in this channel cycle. -/
def execCheckVerdict (c : CoreId) (disturb : BitVec 61) (resid : Resid) (s : State) : Host.Outcome State Fault Refusal :=
  let now := (getCh s (chOf c)).cycles
  let due := (getCore s c).verdicts.filter fun v => decide (v.due ≤ now)
  let s := updCore s c fun k => { k with verdicts := k.verdicts.filter fun v => decide (now < v.due) }
  .next (due.foldl (judge c disturb resid) s)

/-! ### Landings of drains (R96) -/

/-- A result's bits merged into a vector register (R96, R116). -/
def mergeV (old : List Word) (vals : List (Word × Word)) : List Word :=
  List.zipWith (fun o v => (o &&& ~~~v.2) ||| (v.1 &&& v.2)) old vals

/-- A landing drain in its core: a register's bits, or the engine write port, where a store of the cycle before is discarded. -/
def landDrain (it : VItem) (k : Core) : Core :=
  match it.unit with
  | some u => { k with stq := [⟨u, bytesOf (it.vals.map (·.1)), it.org⟩] }
  | none => setV it.vd (mergeV (vReg k it.vd) it.vals) k

/-- One drain at its landing: written, its flags set, a residue its read found differing reported 22 cycles after its issue (R104). -/
def drainOne (c : CoreId) (resid : Resid) (s : State) (it : VItem) : State :=
  let now := (getCh s (chOf c)).cycles
  let left := if isBlock (bits it.org.word 35 4) then 12 else 14
  let s := updCore (drainHazards s c it) c fun k =>
    let k := landDrain it k
    match residueMiss it.res resid with
    | some r => { k with verdicts := k.verdicts ++ [⟨now + left, it.grp.getD 0, none, [r], it.org⟩] }
    | none => k
  raiseFlags s c 0x100 (4 * it.grp.getD 0) it.org it.sat false it.nan false

/-- DRAIN_LANDING (R96, R104): the drains due in this schedule cycle, in issue order: of two that write one bit, the later-issued stands
(DESIGN CHOICE: assumption log, 29). An error the hardware met in reading is the first one's. -/
def execDrainLanding (c : CoreId) (resid : Resid) (s : State) : Host.Outcome State Fault Refusal :=
  let now := schedNow (getCh s (chOf c))
  let due := (getCore s c).drains.filter fun i => decide (i.due ≤ now)
  let s := updCore s c fun k => { k with drains := k.drains.filter fun i => decide (now < i.due) }
  .next ((due.zipIdx.foldl (fun s i => drainOne c (if i.2 = 0 then resid else ⟨0, 0⟩) s i.1)) s)

/-! ### Ballast (R106) -/

/-- BALLAST_DUMMY (R106): the reads and products of the last multiply are repeated and discarded; no state of the machine changes. -/
def execBallastDummy (_c : CoreId) (s : State) : Host.Outcome State Fault Refusal :=
  .next s

end Sys2Proof.Machine
end

