-- ==== Sys2Proof/Machine/VFunc.lean ====
section
/-! DEFINITION. VFunc: the function set of the vector engine (R125-R127, Tables 5.5, 5.6): the tables computed from their definition
in fixed point of 192 bits, and the algorithms. -/

namespace Sys2Proof.Machine

/-! ### True values in fixed point -/

/-- The fraction bits in which the functions behind the tables are formed. -/
def fxP : Nat := 192

/-- One. -/
def fxOne : Int := 2 ^ fxP

/-- A product. -/
def fxMul (a b : Int) : Int := a * b / fxOne

/-- A quotient. -/
def fxDiv (a b : Int) : Int := a * fxOne / b

/-- The sum of terms t, t × r / (k + d) and on: the series exp, sin and cos share; each term from the one before. -/
def fxSeries (f : Nat → Int → Int) : Nat → Nat → Int → Int
  | 0, _, _ => 0
  | n + 1, k, t => t + fxSeries f n (k + 1) (f k t)

/-- e^x for 0 ≤ x ≤ 2. -/
def fxExp (x : Int) : Int :=
  fxSeries (fun k t => fxMul t x / (k + 1)) 70 0 fxOne

/-- 2 atanh(r), for 0 ≤ r ≤ 1/3: ln((1 + r) / (1 − r)). -/
def fxLn (r : Int) : Int :=
  let q := fxMul r r
  2 * fxSeries (fun k t => fxMul t q * (2 * k + 1) / (2 * k + 3)) 64 0 r

/-- ln 2. -/
def fxLn2 : Int := fxLn (fxOne / 3)

/-- atan(1/n). -/
def fxAtan (n : Int) : Int :=
  fxSeries (fun k t => -(t * (2 * k + 1) / (n * n) / (2 * k + 3))) 64 0 (fxOne / n)

/-- π by Machin's formula. -/
def fxPi : Int := 16 * fxAtan 5 - 4 * fxAtan 239

/-- sin x for 0 ≤ x ≤ π/2. -/
def fxSin (x : Int) : Int :=
  fxSeries (fun k t => -(fxMul (fxMul t x) x / ((2 * k + 2) * (2 * k + 3)))) 40 0 x

/-- cos x for 0 ≤ x ≤ π/2. -/
def fxCos (x : Int) : Int :=
  fxSeries (fun k t => -(fxMul (fxMul t x) x / ((2 * k + 1) * (2 * k + 2)))) 40 0 fxOne

/-- The integer square root, from bit `n` down. -/
def isqrtFrom (v : Nat) : Nat → Nat → Nat
  | 0, r => if (r + 1) * (r + 1) ≤ v then r + 1 else r
  | n + 1, r => isqrtFrom v n (if (r + 2 ^ (n + 1)) * (r + 2 ^ (n + 1)) ≤ v then r + 2 ^ (n + 1) else r)

/-- 1/√x for 1 ≤ x ≤ 4. -/
def fxRsqrt (x : Int) : Int :=
  isqrtFrom ((2 ^ (3 * fxP)) / x.toNat) fxP 0

/-! ### Tables (R126) -/

/-- The tables of Table 5.5, in the order of R246. -/
inductive Tbl where
  | e | l | rc | rs0 | rs1 | t | s | c
deriving DecidableEq, Repr

/-- b: the table has 2^b segments. -/
def Tbl.b : Tbl → Nat
  | .e => 7
  | .rs0 => 7
  | .rs1 => 7
  | _ => 8

/-- g(u), at u in fixed point. -/
def Tbl.g (tb : Tbl) (u : Int) : Int :=
  match tb with
  | .e => fxExp (fxMul u fxLn2)
  | .l => fxDiv (fxLn (fxDiv u (2 * fxOne + u))) fxLn2
  | .rc => fxDiv fxOne (fxOne + u)
  | .rs0 => fxRsqrt (fxOne + u)
  | .rs1 => fxRsqrt (2 * (fxOne + u))
  | .t => if u = 0 then fxOne else
    let w := fxExp (2 * u)
    fxDiv (fxDiv (w - fxOne) (w + fxOne)) u
  | .s => fxSin (fxMul fxPi u / 2)
  | .c => fxCos (fxMul fxPi u / 2)

/-- RNE of a fixed-point value × 2^30. -/
def fxRound30 (v : Int) : Int :=
  let d : Int := 2 ^ (fxP - 30)
  let lo := v / d
  let rem := v % d
  if d < 2 * rem ∨ (2 * rem = d ∧ lo % 2 = 1) then lo + 1 else lo

/-- The coefficients of segment j (R126). -/
def Tbl.coef (tb : Tbl) (j : Nat) : Int × Int × Int :=
  let h : Int := fxOne / 2 ^ tb.b
  let y0 := tb.g (j * h)
  let ym := tb.g (j * h + h / 2)
  let y1 := tb.g (j * h + h)
  let c := 2 * (y0 - 2 * ym + y1)
  let b := y1 - y0 - c
  (fxRound30 y0, fxRound30 b, fxRound30 c)

/-- tab(T, R) (R125). -/
def tab (tb : Tbl) (r : Nat) : Int :=
  let d := 2 ^ (30 - tb.b)
  let k := tb.coef (r / d)
  let x : Int := r % d
  let s := x * x / d
  k.1 + k.2.1 * x / d + k.2.2 * s / d

/-- The bytes of every table, as the table digest reads them (R246). -/
def tableBytes : List Byte :=
  [Tbl.e, .l, .rc, .rs0, .rs1, .t, .s, .c].flatMap fun tb => (List.range (2 ^ tb.b)).flatMap fun j =>
    let k := tb.coef j
    leBytes 4 (BitVec.ofInt 32 k.1).toNat ++ leBytes 4 (BitVec.ofInt 32 k.2.1).toNat ++ leBytes 4 (BitVec.ofInt 32 k.2.2).toNat

/-! ### Arithmetic on values (R109) -/

/-- The sum, as IEEE 754 gives it: infinities, signed zeros. -/
def fvAdd (a b : FV) : FV :=
  match a, b with
  | .nan, _ => .nan
  | _, .nan => .nan
  | .inf s, .inf t => if s = t then .inf s else .nan
  | .inf s, _ => .inf s
  | _, .inf t => .inf t
  | .fin s m e, .fin t n f =>
    let d := dyAdd (dyOf s m e) (dyOf t n f)
    if d.num = 0 then .fin (decide (m = 0) && decide (n = 0) && s && t) 0 0 else fvOf d

/-- The product. -/
def fvMul (a b : FV) : FV :=
  match a, b with
  | .nan, _ => .nan
  | _, .nan => .nan
  | .inf s, .inf t => .inf (s != t)
  | .inf s, .fin t n _ => if n = 0 then .nan else .inf (s != t)
  | .fin s m _, .inf t => if m = 0 then .nan else .inf (s != t)
  | .fin s m e, .fin t n f => .fin (s != t) (m * n) (e + f)

/-- The negation. -/
def fvNeg (a : FV) : FV :=
  match a with
  | .nan => .nan
  | .inf s => .inf !s
  | .fin s m e => .fin (!s) m e

/-- round32 of a value (R125). -/
def round32 (v : FV) : Conv := toF fp32 .rne v

/-- The value of a rounding's bits. -/
def Conv.fv (r : Conv) : FV := decodeF fp32 r.bits

/-- One. -/
def fvOne : FV := .fin false 1 0

/-- L2E, G1, G2 (R125). -/
def cL2E : FV := decodeF fp32 0x3FB8AA3B
def cG1 : FV := decodeF fp32 0x3D372713
def cG2 : FV := decodeF fp32 0x3FCC422A

/-- Plain bits, no flag. -/
def plain (v : Nat) : Conv := ⟨v, false, false⟩

/-- A NaN result (R109). -/
def nanConv : Conv := ⟨0x7FC00000, false, true⟩

/-- An integer times 2^e with a sign. -/
def scaledInt (neg : Bool) (v e : Int) : FV :=
  let r := fvOf ⟨v, e⟩
  if neg then fvNeg r else r

/-- ⌊d⌋. -/
def dyFloor (d : Dy) : Int :=
  if 0 ≤ d.exp then d.num * (pow2 d.exp : Int) else d.num / (pow2 (-d.exp) : Int)

/-- ⌊(d − ⌊d⌋) × 2^n⌋. -/
def dyFrac (d : Dy) (n : Nat) : Nat :=
  (dyFloor ⟨d.num, d.exp + n⟩ - dyFloor d * 2 ^ n).toNat

/-- A dyadic compared with an integer. -/
def dyLt (d : Dy) (n : Int) : Bool := decide (d.numAt (min d.exp 0) < n * (pow2 (0 - min d.exp 0) : Int))

/-- e and U of x = ±m × 2^e (R127). -/
def normOf (m : Nat) (e : Int) : Int × Nat :=
  let l := Nat.log2 m
  ((l : Int) + e, (m - 2 ^ l) * 2 ^ (30 - l))

/-! ### The functions (Table 5.6) -/

def fnExp2 (x : FV) : Conv :=
  match x with
  | .nan => nanConv
  | .inf s => plain (if s then 0 else 0x7F800000)
  | .fin s m e =>
    let d := dyOf s m e
    if !dyLt d 128 then ⟨0x7F7FFFFF, true, false⟩
    else if dyLt d (-160) then plain 0
    else round32 (scaledInt false (tab .e (dyFrac d 30)) (dyFloor d - 30))

def fnLog2 (x : FV) : Conv :=
  match x with
  | .nan => nanConv
  | .inf s => if s then nanConv else plain 0x7F800000
  | .fin _ 0 _ => plain 0xFF800000
  | .fin true _ _ => nanConv
  | .fin false m e =>
    let n := normOf m e
    round32 (fvOf ⟨n.1 * 2 ^ 30 + tab .l n.2, -30⟩)

def fnRecip (x : FV) : Conv :=
  match x with
  | .nan => nanConv
  | .inf s => plain (signBit fp32 s)
  | .fin s 0 _ => plain (signBit fp32 s + 0x7F800000)
  | .fin s m e =>
    let n := normOf m e
    round32 (scaledInt s (tab .rc n.2) (-n.1 - 30))

def fnRsqrt (x : FV) : Conv :=
  match x with
  | .nan => nanConv
  | .inf s => if s then nanConv else plain 0
  | .fin s 0 _ => plain (signBit fp32 s + 0x7F800000)
  | .fin true _ _ => nanConv
  | .fin false m e =>
    let n := normOf m e
    if n.1 % 2 = 0 then round32 (scaledInt false (tab .rs0 n.2) (-(n.1 / 2) - 30))
    else round32 (scaledInt false (tab .rs1 n.2) (-((n.1 - 1) / 2) - 30))

def fnTanh (x : FV) : Conv :=
  match x with
  | .nan => nanConv
  | .inf s => plain (signBit fp32 s + 0x3F800000)
  | .fin s m e =>
    let a := dyOf false m e
    let r := if dyLt a 1 then round32 (fvMul (.fin false m e) (scaledInt false (tab .t (dyFloor ⟨a.num, a.exp + 30⟩).toNat) (-30)))
      else
        let p := (fnExp2 (round32 (fvMul (.fin true m (e + 1)) cL2E)).fv).fv
        round32 (fvMul (round32 (fvAdd fvOne (fvNeg p))).fv (fnRecip (round32 (fvAdd fvOne p)).fv).fv)
    { r with bits := r.bits + signBit fp32 s }

def fnSigmoid (x : FV) : Conv :=
  match x with
  | .nan => nanConv
  | .inf s => plain (if s then 0 else 0x3F800000)
  | .fin _ _ _ =>
    let t := (round32 (fvMul (fvNeg x) cL2E)).fv
    match t.dy with
    | some d => if !dyLt d 64 then fnExp2 (fvNeg t) else fnRecip (round32 (fvAdd fvOne (fnExp2 t).fv)).fv
    | none => nanConv

def fnSilu (x : FV) : Conv :=
  match x with
  | .nan => nanConv
  | .inf s => plain (if s then 0x80000000 else 0x7F800000)
  | .fin _ _ _ => round32 (fvMul x (fnSigmoid x).fv)

def fnGelu (x : FV) : Conv :=
  match x with
  | .nan => nanConv
  | .inf s => plain (if s then 0x80000000 else 0x7F800000)
  | .fin _ _ _ =>
    let w := (round32 (fvMul (round32 (fvMul x x)).fv cG1)).fv
    let z := (round32 (fvMul (round32 (fvAdd x (fvMul x w))).fv cG2)).fv
    round32 (fvMul x (fnSigmoid z).fv)

/-- sin (quarter 0) and cos (quarter 1) of x turns; a zero result is +0. -/
def fnSinCos (quarter : Nat) (x : FV) : Conv :=
  match x.dy with
  | none => nanConv
  | some d =>
    let r := dyFrac d 32
    let q := (r / 2 ^ 30 + quarter) % 4
    let u := r % 2 ^ 30
    let v := if q % 2 = 0 then tab .s u else tab .c u
    round32 (fvOf ⟨if q < 2 then v else -v, -30⟩)

/-- A function by its code (Table 5.5). -/
def fnOf (code : Nat) (x : FV) : Conv :=
  match code with
  | 0 => fnExp2 x
  | 1 => fnLog2 x
  | 2 => fnRecip x
  | 3 => fnRsqrt x
  | 4 => fnTanh x
  | 5 => fnSigmoid x
  | 6 => fnSilu x
  | 7 => fnGelu x
  | 8 => fnSinCos 0 x
  | _ => fnSinCos 1 x

end Sys2Proof.Machine
end

