-- ==== Sys2Proof/Machine/Vector.lean ====
section
/-! DEFINITION. Vector: the V slot (R108-R131): lane arithmetic, conversions, block operations, reductions, top-k, draws, the
function set and the landings of V results. The parameter updates stand in Update. -/

namespace Sys2Proof.Machine

/-! ### Fields (Table 5.1) -/

/-- The common fields, from V-slot bits [41:0]. -/
structure VF where
  ty   : Nat
  vd   : Nat
  va   : Nat
  vb   : Nat
  bm   : Nat
  k    : Nat
  g    : Nat
  ixl  : Nat
  ixd  : Bool
  ixa  : Bool
  hin  : Bool
  hout : Bool
  sub  : Nat
deriving DecidableEq, Repr

def vF (w : BitVec 42) : VF :=
  let v := w.toNat
  { ty := bits v 40 2, vd := bits v 35 5, va := bits v 30 5, vb := bits v 25 5, bm := bits v 23 2, k := bits v 16 7, g := bits v 12 4,
    ixl := bits v 10 2, ixd := bit v 9, ixa := bit v 8, hin := bit v 7, hout := bit v 6, sub := bits v 0 6 }

/-- The types an operation takes (Table 5.2). -/
def vTypes (op : Nat) : List Nat :=
  if op = 0x04 ∨ op = 0x05 ∨ op = 0x13 then [0, 1]
  else if 0x0B ≤ op ∧ op ≤ 0x11 then [2]
  else if op = 0x14 then [0] else [0, 1, 2]

/-- The largest value of sub (Table 5.2; the vfn code stands in its low bits). -/
def vSubMax (op : Nat) : Nat :=
  if op = 0x0A then 5 else if op = 0x13 then 9 else if op = 0x14 then 2 else 0

/-- The encoding of a common operation is invalid (R112, Tables 5.1, 5.2). -/
def vBad (op : Nat) (f : VF) : Bool :=
  !(vTypes op).contains f.ty || decide (vSubMax op < f.sub) ||
    (decide (op = 0x08 ∨ op = 0x09 ∨ op = 0x13 ∨ op = 0x14) && decide (f.vb ≠ 0 ∨ f.bm ≠ 0)) || (decide (f.bm = 3) && decide (f.vb ≠ 0)) ||
    (decide (op = 0x12 ∨ op = 0x14) && (decide (f.va ≠ 0) || f.ixa)) || (decide (op = 0x14) && f.ixd) ||
    (decide (f.bm ≠ 1) && decide (f.k ≠ 0)) || (decide (f.bm ≠ 3) && decide (f.g ≠ 0)) ||
    (decide (f.ixl ≠ 0) && !(decide (f.bm = 2) || f.ixd || f.ixa)) ||
    (decide (f.ty ≠ 1) && (f.hin || f.hout)) || (decide (op = 0x0A) && f.hout)

/-- VX_SRCTL's seed slot is not defined (R119). -/
def vSeed (s : State) (k : Core) : Option Nat :=
  seedOf s k.job (bits (ecrGet k 0x208).toNat 24 8)

/-- The conditions of a common operation: all report 0x05 (R112, R119). -/
def vFault (s : State) (k : Core) (op : Nat) (w : BitVec 42) : Option Nat :=
  if vBad op (vF w) || (decide (op = 0x14) && (vSeed s k).isNone) then some 0x05 else none

/-! ### Length and operands (R113, R114) -/

/-- The length in effect (R113). -/
def vLen (k : Core) : Nat :=
  min 128 (match innerLoop k with
    | some l => (ecrGet k (0x202 + l)).toNat
    | none => (ecrGet k 0x201).toNat)

/-- A register number, indexed by a loop level's index where asked (R114). -/
def vIdx (k : Core) (r : Nat) (ix : Bool) (l : Nat) : Nat :=
  if ix then (r + (loopOf k l).index) % 32 else r

/-- Operand B in every lane (Table 5.1). -/
def vB (k : Core) (f : VF) : List Word :=
  match f.bm with
  | 0 => vReg k f.vb
  | 1 => List.replicate 128 (laneW (vReg k f.vb) f.k)
  | 2 => List.replicate 128 (laneW (vReg k f.vb) ((loopOf k f.ixl).index % 128))
  | _ => List.replicate 128 (gReg k f.g)

/-- What one lane writes: bits with their mask, SAT, NAN. -/
abbrev LaneOut := (Word × Word) × Bool × Bool

/-- A lane that writes nothing. -/
def noLane : LaneOut := ((0, 0), false, false)

/-- A whole element without flags. -/
def wholeLane (v : Word) : LaneOut := ((v, BitVec.allOnes 32), false, false)

/-- A conversion's result as a whole element. -/
def convLane (r : Conv) : LaneOut := (place 32 0 r.bits, r.sat, r.nan)

/-! ### Lane arithmetic (R109-R111) -/

/-- The half of an element (R110). -/
def half (w : Word) (hi : Bool) : Nat :=
  bits w.toNat (if hi then 16 else 0) 16

/-- The value an operand stands for under ty 0 or 1 (R109, R110). -/
def fpIn (ty : Nat) (hi : Bool) (w : Word) : FV :=
  if ty = 1 then decodeF bf16 (half w hi) else fv32 w

/-- A value rounded to the operation's type (R109, R110). -/
def fpOut (f : VF) (v : FV) : LaneOut :=
  if f.ty = 1 then
    let r := toF bf16 .rne v
    (place 16 (if f.hout then 16 else 0) r.bits, r.sat, r.nan)
  else convLane (toF fp32 .rne v)

/-- The order of finite and infinite values, −0 below +0: negative magnitudes below all others (R109). -/
def fvLt (a b : FV) : Bool :=
  match a, b with
  | .nan, _ => false
  | _, .nan => false
  | .inf s, .inf t => s && !t
  | .inf s, .fin _ _ _ => s
  | .fin _ _ _, .inf t => !t
  | .fin s m e, .fin t n f =>
    if m = 0 ∧ n = 0 then s && !t
    else decide ((dyOf s m e).numAt (min e f) < (dyOf t n f).numAt (min e f))

/-- Numeric equality; the zeros are equal. -/
def fvEq (a b : FV) : Bool :=
  match a, b with
  | .inf s, .inf t => s == t
  | .fin s m e, .fin t n f => decide ((dyOf s m e).numAt (min e f) = (dyOf t n f).numAt (min e f))
  | _, _ => false

/-- A value is NaN. -/
def FV.isNan (a : FV) : Bool :=
  match a with
  | .nan => true
  | _ => false

/-- The result of an FP32 or BF16 operation before rounding (Table 5.2): a, B and the old vd. -/
def fpOp (op : Nat) (a b d : FV) : FV :=
  match op with
  | 0x01 => fvAdd a b
  | 0x02 => fvAdd a (fvNeg b)
  | 0x03 => fvMul a b
  | 0x04 => fvAdd (fvMul a b) d
  | 0x05 => fvAdd d (fvNeg (fvMul a b))
  | 0x06 => if a.isNan || b.isNan then .nan else if fvLt b a then b else a
  | 0x07 => if a.isNan || b.isNan then .nan else if fvLt a b then b else a
  | 0x08 => match a with | .nan => .nan | .inf _ => .inf false | .fin _ m e => .fin false m e
  | 0x09 => fvNeg a
  | _ => b

/-- A vcmp relation (Table 5.2). -/
def relOf (sub : Nat) (lt eq : Bool) : Bool :=
  match sub with
  | 0 => eq
  | 1 => !eq
  | 2 => lt
  | 3 => lt || eq
  | 4 => !lt && !eq
  | _ => !lt

/-- A relation of two values; NaN makes every relation false except ne. -/
def fpRel (sub : Nat) (a b : FV) : Bool :=
  if a.isNan || b.isNan then decide (sub = 1) else relOf sub (fvLt a b && !fvEq a b) (fvEq a b)

/-- The result of an INT32 operation (R111). -/
def intOp (op : Nat) (a b : Word) : Word :=
  match op with
  | 0x01 => a + b
  | 0x02 => a - b
  | 0x03 => a * b
  | 0x06 => wMin a b
  | 0x07 => wMax a b
  | 0x08 => if a.slt 0 then -a else a
  | 0x09 => -a
  | 0x0C => a &&& b
  | 0x0D => a ||| b
  | 0x0E => a ^^^ b
  | 0x0F => a <<< shamt b
  | 0x10 => a >>> shamt b
  | 0x11 => a.sshiftRight (shamt b)
  | _ => b

/-- One active lane of a common operation: a, B, the old vd. -/
def comLane (op : Nat) (f : VF) (a b d : Word) : LaneOut :=
  if op = 0x0A then
    wholeLane (wBool (if f.ty = 2 then relOf f.sub (a.slt b) (a == b)
      else fpRel f.sub (fpIn f.ty f.hin a) (fpIn f.ty f.hin b)))
  else if op = 0x0B then (if b = 0 then noLane else wholeLane a)
  else if op = 0x13 then
    let r := fnOf f.sub (fpIn f.ty f.hin a)
    if f.ty = 1 then
      let o := fpOut f r.fv
      (o.1, o.2.1 || r.sat, o.2.2)
    else convLane r
  else if f.ty = 2 then wholeLane (intOp op a b)
  else fpOut f (fpOp op (fpIn f.ty f.hin a) (fpIn f.ty f.hin b) (fpIn f.ty f.hout d))

/-! ### Results in flight (R115) -/

/-- A V result enters the pipe. -/
def vPush (s : State) (c : CoreId) (due vd : Nat) (l : List LaneOut) (ops : List Byte) (o : Origin) : State :=
  updCore s c fun k => { k with vPipe := k.vPipe ++ [⟨due, vd, none, l.map (·.1), l.any (·.2.1), l.any (·.2.2), none, [], ops, o⟩] }

/-- The lanes below the length take their result; the others write nothing (R113). -/
def active (n : Nat) (l : List LaneOut) : List LaneOut :=
  l.mapIdx fun i x => if i < n then x else noLane

/-- The latency of a common operation (Table 5.4). -/
def comLat (k : Core) (op : Nat) : Nat :=
  if op = 0x13 then (if k.profile = 2 then 14 else 16) else if 0x03 ≤ op ∧ op ≤ 0x05 then 6 else 4

/-- The channel's schedule cycle. -/
def nowOf (s : State) (c : CoreId) : Nat :=
  (getCh s (chOf c)).sched

/-- The origin of a V word. -/
def vOrg (k : Core) (op : Nat) (w : BitVec 42) : Origin :=
  originOf k 4 (op * 2 ^ 42 + w.toNat)

/-- What a common operation reads at issue (Tables 5.1, 5.2). -/
def comReads (k : Core) (op : Nat) (f : VF) : List Src :=
  (if op = 0x12 ∨ op = 0x14 then [] else [.vreg (vIdx k f.va f.ixa f.ixl)]) ++
    (if op = 0x08 ∨ op = 0x09 ∨ op = 0x13 ∨ op = 0x14 ∨ f.bm = 3 then [] else [.vreg f.vb]) ++
    (if op = 0x04 ∨ op = 0x05 then [.vreg (vIdx k f.vd f.ixd f.ixl)] else [])

/-- A common operation (R109-R115). -/
def vCom (s : State) (c : CoreId) (op : Nat) (w : BitVec 42) : Host.Outcome State Fault Refusal :=
  let k := startCore s c
  let f := vF w
  let a := vReg k (vIdx k f.va f.ixa f.ixl)
  let vd := vIdx k f.vd f.ixd f.ixl
  let b := vB k f
  let d := vReg k vd
  .next (issue s c 4 (vFault s k op w) fun s =>
    let s := readHazards s c 4 (comReads k op f)
    let l := (List.range 128).map fun i => comLane op f (laneW a i) (laneW b i) (laneW d i)
    vPush s c (nowOf s c + comLat k op) vd (active (vLen k) l) (bytesOf a ++ bytesOf b) (vOrg k op w))

/-- VADD (R109, Table 5.2). -/
def execVadd (c : CoreId) (w : BitVec 42) (s : State) : Host.Outcome State Fault Refusal :=
  vCom s c 0x01 w

/-- VSUB (R109, Table 5.2). -/
def execVsub (c : CoreId) (w : BitVec 42) (s : State) : Host.Outcome State Fault Refusal :=
  vCom s c 0x02 w

/-- VMUL (R109, Table 5.2). -/
def execVmul (c : CoreId) (w : BitVec 42) (s : State) : Host.Outcome State Fault Refusal :=
  vCom s c 0x03 w

/-- VFMA (R109, Table 5.2). -/
def execVfma (c : CoreId) (w : BitVec 42) (s : State) : Host.Outcome State Fault Refusal :=
  vCom s c 0x04 w

/-- VFNMA (R109, Table 5.2). -/
def execVfnma (c : CoreId) (w : BitVec 42) (s : State) : Host.Outcome State Fault Refusal :=
  vCom s c 0x05 w

/-- VMIN (R109, Table 5.2). -/
def execVmin (c : CoreId) (w : BitVec 42) (s : State) : Host.Outcome State Fault Refusal :=
  vCom s c 0x06 w

/-- VMAX (R109, Table 5.2). -/
def execVmax (c : CoreId) (w : BitVec 42) (s : State) : Host.Outcome State Fault Refusal :=
  vCom s c 0x07 w

/-- VABS (R109, Table 5.2). -/
def execVabs (c : CoreId) (w : BitVec 42) (s : State) : Host.Outcome State Fault Refusal :=
  vCom s c 0x08 w

/-- VNEG (R109, Table 5.2). -/
def execVneg (c : CoreId) (w : BitVec 42) (s : State) : Host.Outcome State Fault Refusal :=
  vCom s c 0x09 w

/-- VCMP (R109, Table 5.2). -/
def execVcmp (c : CoreId) (w : BitVec 42) (s : State) : Host.Outcome State Fault Refusal :=
  vCom s c 0x0A w

/-- VSEL (R111, Table 5.2). -/
def execVsel (c : CoreId) (w : BitVec 42) (s : State) : Host.Outcome State Fault Refusal :=
  vCom s c 0x0B w

/-- VAND (R111, Table 5.2). -/
def execVand (c : CoreId) (w : BitVec 42) (s : State) : Host.Outcome State Fault Refusal :=
  vCom s c 0x0C w

/-- VOR (R111, Table 5.2). -/
def execVor (c : CoreId) (w : BitVec 42) (s : State) : Host.Outcome State Fault Refusal :=
  vCom s c 0x0D w

/-- VXOR (R111, Table 5.2). -/
def execVxor (c : CoreId) (w : BitVec 42) (s : State) : Host.Outcome State Fault Refusal :=
  vCom s c 0x0E w

/-- VSLL (R111, Table 5.2). -/
def execVsll (c : CoreId) (w : BitVec 42) (s : State) : Host.Outcome State Fault Refusal :=
  vCom s c 0x0F w

/-- VSRL (R111, Table 5.2). -/
def execVsrl (c : CoreId) (w : BitVec 42) (s : State) : Host.Outcome State Fault Refusal :=
  vCom s c 0x10 w

/-- VSRA (R111, Table 5.2). -/
def execVsra (c : CoreId) (w : BitVec 42) (s : State) : Host.Outcome State Fault Refusal :=
  vCom s c 0x11 w

/-- VMOV (R109, Table 5.2). -/
def execVmov (c : CoreId) (w : BitVec 42) (s : State) : Host.Outcome State Fault Refusal :=
  vCom s c 0x12 w

/-- A vfn: its code stands in sub (Table 5.5). -/
def vFn (s : State) (c : CoreId) (code : Nat) (w : BitVec 38) : Host.Outcome State Fault Refusal :=
  vCom s c 0x13 (BitVec.ofNat 42 (w.toNat * 16 + code))

/-- VFN_EXP2 (R127, Table 5.6). -/
def execVfnExp2 (c : CoreId) (w : BitVec 38) (s : State) : Host.Outcome State Fault Refusal :=
  vFn s c 0 w

/-- VFN_LOG2 (R127, Table 5.6). -/
def execVfnLog2 (c : CoreId) (w : BitVec 38) (s : State) : Host.Outcome State Fault Refusal :=
  vFn s c 1 w

/-- VFN_RECIPROCAL (R127, Table 5.6). -/
def execVfnReciprocal (c : CoreId) (w : BitVec 38) (s : State) : Host.Outcome State Fault Refusal :=
  vFn s c 2 w

/-- VFN_RSQRT (R127, Table 5.6). -/
def execVfnRsqrt (c : CoreId) (w : BitVec 38) (s : State) : Host.Outcome State Fault Refusal :=
  vFn s c 3 w

/-- VFN_TANH (R127, Table 5.6). -/
def execVfnTanh (c : CoreId) (w : BitVec 38) (s : State) : Host.Outcome State Fault Refusal :=
  vFn s c 4 w

/-- VFN_SIGMOID (R127, Table 5.6). -/
def execVfnSigmoid (c : CoreId) (w : BitVec 38) (s : State) : Host.Outcome State Fault Refusal :=
  vFn s c 5 w

/-- VFN_SILU (R127, Table 5.6). -/
def execVfnSilu (c : CoreId) (w : BitVec 38) (s : State) : Host.Outcome State Fault Refusal :=
  vFn s c 6 w

/-- VFN_GELU (R127, Table 5.6). -/
def execVfnGelu (c : CoreId) (w : BitVec 38) (s : State) : Host.Outcome State Fault Refusal :=
  vFn s c 7 w

/-- VFN_SIN (R127, Table 5.6). -/
def execVfnSin (c : CoreId) (w : BitVec 38) (s : State) : Host.Outcome State Fault Refusal :=
  vFn s c 8 w

/-- VFN_COS (R127, Table 5.6). -/
def execVfnCos (c : CoreId) (w : BitVec 38) (s : State) : Host.Outcome State Fault Refusal :=
  vFn s c 9 w

/-! ### Draws (R119, R124) -/

/-- VX_SRIDX after a drawing instruction (R119). -/
def vDrew (c : CoreId) (k0 : Core) (s : State) : State :=
  updCore s c (ecrSet 0x209 (ecrGet k0 0x209 + 1))

/-- The draw of each lane (R119). -/
def vDraws (s : State) (k : Core) : List Nat :=
  let ctl := (ecrGet k 0x208).toNat
  let seed := (vSeed s k).getD 0
  (List.range 128).map fun i => cg64 seed k.step (0x56000000 + bits ctl 0 24) ((128 * (ecrGet k 0x209).toNat + i) % 2 ^ 32)

/-- The value a vrand form takes from a draw (R124). -/
def randVal (form z : Nat) : Word :=
  match form with
  | 0 => BitVec.ofNat 32 (z / 2 ^ 32)
  | 1 => BitVec.ofNat 32 z
  | _ => BitVec.ofNat 32 (toF fp32 .rne (.fin false (z / 2 ^ 40) (-24))).bits

/-- VRAND (R119, R124). -/
def execVrand (c : CoreId) (w : BitVec 42) (s : State) : Host.Outcome State Fault Refusal :=
  let k := startCore s c
  let f := vF w
  .next (issue s c 4 (vFault s k 0x14 w) fun s =>
    let l := (vDraws s k).map fun z => wholeLane (randVal f.sub z)
    vDrew c k (vPush s c (nowOf s c + 4) f.vd (active (vLen k) l) [] (vOrg k 0x14 w)))

/-! ### Conversions (R118) -/

/-- A format code of vcvt. -/
def cvtCode (c : Nat) : Bool :=
  decide (c ≤ 6 ∨ c = 0xA)

/-- An integer format of vcvt. -/
def cvtInt (c : Nat) : Bool :=
  decide (c = 5 ∨ c = 6 ∨ c = 0xA)

/-- A position its format does not allow (R118). -/
def cvtPosBad (c pos : Nat) : Bool :=
  posBad c pos || (decide (c = 0xA) && decide (pos ≠ 0))

/-- The conditions of a vcvt (R112, R118, R119). -/
def cvtFault (s : State) (k : Core) (w : BitVec 42) : Option Nat :=
  let v := w.toNat
  let fr := bits v 38 4
  let dst := bits v 34 4
  if !cvtCode fr || !cvtCode dst || decide (bits v 0 11 ≠ 0) || cvtPosBad fr (bits v 22 2) || cvtPosBad dst (bits v 20 2) ||
      (decide (bits v 11 8 ≠ 0) && !cvtInt fr && !cvtInt dst) || (bit v 19 && (vSeed s k).isNone) then some 0x05 else none

/-- The source element of a vcvt: an integer, or a value (R118). -/
def cvtSrc (fr pos : Nat) (w : Word) : FV :=
  let v := w.toNat
  match fr with
  | 0 => fv32 w
  | 1 => decodeF bf16 (bits v (8 * pos) 16)
  | 2 => decodeF fp16 (bits v (8 * pos) 16)
  | 3 => decodeF e4m3 (bits v (8 * pos) 8)
  | 4 => decodeF e5m2 (bits v (8 * pos) 8)
  | 5 => fvOf ⟨sint 8 (bits v (8 * pos) 8), 0⟩
  | 6 => fvOf ⟨sint 4 (bits v (8 * pos) 4), 0⟩
  | _ => fvOf ⟨w.toInt, 0⟩

/-- A value times 2^e. -/
def fvScale (v : FV) (e : Int) : FV :=
  match v with
  | .fin s m x => .fin s m (x + e)
  | _ => v

/-- One lane of a vcvt: an integer source for a floating target is scaled by 2^(−q); an integer target by 2^q (R118). -/
def cvtLane (fr dst fpos tpos : Nat) (q : Int) (rnd : Rnd) (w : Word) : LaneOut :=
  let v := cvtSrc fr fpos w
  elemOut dst tpos q rnd (if cvtInt fr && !cvtInt dst then fvScale v (-q) else v)

/-- VCVT (R118, R119). -/
def execVcvt (c : CoreId) (w : BitVec 42) (s : State) : Host.Outcome State Fault Refusal :=
  let k := startCore s c
  let v := w.toNat
  let a := vReg k (bits v 24 5)
  .next (issue s c 4 (cvtFault s k w) fun s =>
    let s := readHazards s c 4 [.vreg (bits v 24 5)]
    let l := List.zipWith (fun z x => cvtLane (bits v 38 4) (bits v 34 4) (bits v 22 2) (bits v 20 2) (sint 8 (bits v 11 8))
      (if bit v 19 then srOf z else .rne) x) (vDraws s k) a
    let s := vPush s c (nowOf s c + 4) (bits v 29 5) (active (vLen k) l) (bytesOf a) (vOrg k 0x18 w)
    if bit v 19 then vDrew c k s else s)

/-! ### Block operations (R120) -/

/-- Fields of the block operations (Table 5.3). -/
structure BlkF where
  fmt  : Nat
  vd   : Nat
  va   : Nat
  pos  : Nat
  spos : Nat
deriving DecidableEq, Repr

def blkF (w : BitVec 42) : BlkF :=
  let v := w.toNat
  { fmt := bits v 38 4, vd := bits v 33 5, va := bits v 28 5, pos := bits v 26 2, spos := bits v 24 2 }

/-- The conditions of a vbenc (R119, R120). -/
def bencFault (s : State) (k : Core) (w : BitVec 42) : Option Nat :=
  let f := blkF w
  let sr := bit w.toNat 23
  if !isBlock f.fmt || decide (f.pos = f.spos) || (decide (f.fmt = 9) && sr) || decide (bits w.toNat 0 23 ≠ 0) ||
      (sr && (vSeed s k).isNone) then some 0x05 else none

/-- VBENC (R119, R120): all 128 lanes. -/
def execVbenc (c : CoreId) (w : BitVec 42) (s : State) : Host.Outcome State Fault Refusal :=
  let k := startCore s c
  let f := blkF w
  let sr := bit w.toNat 23
  let a := vReg k f.va
  .next (issue s c 4 (bencFault s k w) fun s =>
    let s := readHazards s c 4 [.vreg f.va]
    let r := convLanes f.fmt f.pos f.spos 0 (List.zipWith (fun z x => (fv32 x, if sr then srOf z else .rne)) (vDraws s k) a)
    let s := updCore s c fun x => { x with vPipe := x.vPipe ++
      [⟨nowOf s c + 6, f.vd, none, r.1, r.2.1, r.2.2, none, [], bytesOf a, vOrg k 0x19 w⟩] }
    if sr then vDrew c k s else s)

/-- The bytes of a packed block (Table 3.2). -/
def packSize (fmt : Nat) : Nat :=
  if fmt = 9 then 49 else 33

/-- The blocks of a register. -/
def blockCount (fmt : Nat) : Nat :=
  128 / (blockShape fmt).2

/-- The conditions of a vbpack or vbunpk (R112, R120). The positions serve the split form only; that they are equal is no condition here. -/
def packFault (w : BitVec 42) (unpack : Bool) : Option Nat :=
  let f := blkF w
  let form := bit w.toNat 14
  if !isBlock f.fmt || decide (bits w.toNat 0 14 ≠ 0) || (!unpack && form) ||
      (unpack && form && decide (f.pos ≠ 0 ∨ f.spos ≠ 0)) ||
      decide (512 < bits w.toNat 15 9 + blockCount f.fmt * packSize f.fmt) then some 0x05 else none

/-- Mantissas packed as w-bit fields, little-endian (R59). -/
def packMants (w : Nat) (ms : List Nat) : Nat :=
  ms.foldr (fun m a => m % 2 ^ w + a * 2 ^ w) 0

/-- One packed block: scale byte, then mantissas (R59). -/
def packBlock (fmt : Nat) (scale : Nat) (ms : List Nat) : List Byte :=
  leBytes 1 scale ++ leBytes (packSize fmt - 1) (packMants (blockShape fmt).1 ms)

/-- The packed bytes of a register in split form (R120). -/
def packReg (f : BlkF) (a : List Word) : List Byte :=
  (chunksOf (blockShape f.fmt).2 128 a).flatMap fun l =>
    packBlock f.fmt (bits (laneW l 0).toNat (8 * f.spos) 8) (l.map fun x => bits x.toNat (8 * f.pos) 8)

/-- Bytes placed in a register: each word's bits and mask. -/
def placeBytes (off : Nat) (bs : List Byte) : List LaneOut :=
  (List.range 128).map fun i =>
    let one := fun j => if off ≤ 4 * i + j ∧ 4 * i + j < off + bs.length
      then place 8 (8 * j) (fld bs (4 * i + j - off) 1) else (0, 0)
    (joinW (joinW (one 0) (one 1)) (joinW (one 2) (one 3)), false, false)

/-- VBPACK (R120). -/
def execVbpack (c : CoreId) (w : BitVec 42) (s : State) : Host.Outcome State Fault Refusal :=
  let k := startCore s c
  let f := blkF w
  let a := vReg k f.va
  .next (issue s c 4 (packFault w false) fun s =>
    let s := readHazards s c 4 [.vreg f.va]
    vPush s c (nowOf s c + 4) f.vd (placeBytes (bits w.toNat 15 9) (packReg f a)) (bytesOf a) (vOrg k 0x1A w))

/-- A mantissa byte and a scale byte at their positions; at one position, a free function of the two (DESIGN CHOICE: assumption log, 33). -/
def splitBytes (pos spos m scale : Nat) : Word × Word :=
  if pos = spos then place 8 (8 * pos) (Config.samePlace m scale).toNat
  else joinW (place 8 (8 * pos) m) (place 8 (8 * spos) scale)

/-- One element of a packed block in split form or as FP32 (R120). -/
def unpackElem (f : BlkF) (form : Bool) (scale m : Nat) : LaneOut :=
  let sh := blockShape f.fmt
  let v := sint sh.1 m
  if form then convLane (toF fp32 .rne (blockElem sh.1 scale v))
  else (splitBytes f.pos f.spos (byteOfInt v) scale, false, false)

/-- VBUNPK (R120). -/
def execVbunpk (c : CoreId) (w : BitVec 42) (s : State) : Host.Outcome State Fault Refusal :=
  let k := startCore s c
  let f := blkF w
  let a := vReg k f.va
  let sh := blockShape f.fmt
  .next (issue s c 4 (packFault w true) fun s =>
    let s := readHazards s c 4 [.vreg f.va]
    let b := slice (bytesOf a) (bits w.toNat 15 9) (blockCount f.fmt * packSize f.fmt)
    let l := (List.range (blockCount f.fmt)).flatMap fun j =>
      let p := slice b (j * packSize f.fmt) (packSize f.fmt)
      let ms := leNat (p.drop 1)
      (List.range sh.2).map fun i => unpackElem f (bit w.toNat 14) (fld p 0 1) (bits ms (sh.1 * i) sh.1)
    vPush s c (nowOf s c + 4) f.vd l (bytesOf a) (vOrg k 0x1B w))

/-! ### Reductions (R121, R122) -/

/-- The conditions of a vred (Table 5.3): the encoding of kinds 0 to 4, or of the prefix sum. -/
def redFault (w : BitVec 42) (prefixSum : Bool) : Option Nat :=
  let v := w.toNat
  if decide (bits v 40 2 = 1 ∨ bits v 40 2 = 3) || decide (bits v 24 3 = 0) || decide (bits v 0 24 ≠ 0) ||
      (if prefixSum then decide (bits v 27 3 ≠ 5) else decide (6 ≤ bits v 27 3)) then some 0x05 else none

/-- A node of the tree: value, lane, SAT, NAN. -/
structure RNode where
  val  : Word
  lane : Nat
  sat  : Bool
  nan  : Bool
deriving DecidableEq, Repr

/-- The right child wins an argmax or argmin (R121). -/
def argWins (ty : Nat) (isMax : Bool) (l r : Word) : Bool :=
  if ty = 2 then (if isMax then l.slt r else r.slt l)
  else
    let a := fv32 l
    let b := fv32 r
    if b.isNan then !a.isNan else if a.isNan then false else if isMax then fvLt a b else fvLt b a

/-- Two active children combined (R121). -/
def redOp (ty kind : Nat) (l r : RNode) : RNode :=
  if 3 ≤ kind then (if argWins ty (decide (kind = 3)) l.val r.val then r else l)
  else
    let op := if kind = 0 then 0x01 else if kind = 1 then 0x07 else 0x06
    if ty = 2 then { l with val := intOp op l.val r.val }
    else
      let x := toF fp32 .rne (fpOp op (fv32 l.val) (fv32 r.val) .nan)
      { l with val := BitVec.ofNat 32 x.bits, sat := l.sat || r.sat || x.sat, nan := l.nan || r.nan || x.nan }

/-- One level of the tree. -/
def redLevel (f : RNode → RNode → RNode) : List (Option RNode) → List (Option RNode)
  | some a :: some b :: r => some (f a b) :: redLevel f r
  | some a :: none :: r => some a :: redLevel f r
  | none :: b :: r => b :: redLevel f r
  | l => l

/-- The levels of a tree. -/
def redTree (f : RNode → RNode → RNode) : Nat → List (Option RNode) → List (Option RNode)
  | 0, l => l
  | n + 1, l => redTree f n (redLevel f l)

/-- The lanes as nodes (R121). -/
def redLeaves (n : Nat) (a : List Word) : List (Option RNode) :=
  a.mapIdx fun i x => if i < n then some ⟨x, i, false, false⟩ else none

/-- A lane's value as a result: an FP32 NaN becomes the canonical NaN and sets NAN, carrying no payload (R57, R109). -/
def quietNode (ty : Nat) (x : RNode) : RNode :=
  if ty ≠ 2 ∧ (fv32 x.val).isNan then { x with val := BitVec.ofNat 32 (toF fp32 .rne .nan).bits, nan := true } else x

/-- A root's element: its value, or its lane for argmax and argmin, which set no flag (R121). -/
def rootLane (ty kind : Nat) (r : Option RNode) : LaneOut :=
  match r with
  | none => noLane
  | some x =>
    if 3 ≤ kind then wholeLane (BitVec.ofNat 32 x.lane)
    else
      let y := quietNode ty x
      ((y.val, BitVec.allOnes 32), y.sat, y.nan)

/-- The running sums of one group (R122). -/
def prefixSums (ty : Nat) : Option RNode → List (Option RNode) → List LaneOut
  | _, [] => []
  | acc, none :: r => noLane :: prefixSums ty acc r
  | acc, some x :: r =>
    let y := match acc with
      | none => quietNode ty x
      | some a => redOp ty 0 { a with sat := false, nan := false } x
    ((y.val, BitVec.allOnes 32), y.sat, y.nan) :: prefixSums ty (some y) r

/-- A prefix sum's results enter the pipe (R122). -/
def vPrefix (s : State) (c : CoreId) (k : Core) (w : BitVec 42) : State :=
  let v := w.toNat
  let a := vReg k (bits v 30 5)
  vPush s c (nowOf s c + 16) (bits v 35 5)
    ((chunksOf (2 ^ bits v 24 3) 128 (redLeaves (vLen k) a)).flatMap (prefixSums (bits v 40 2) none)) (bytesOf a) (vOrg k 0x1C w)

/-- Roots in elements 0 on; the other elements keep their values (R121). -/
def padLanes (l : List LaneOut) : List LaneOut :=
  (l ++ List.replicate 128 noLane).take 128

/-- VRED (R121); a word of kind 5 is the prefix sum. -/
def execVred (c : CoreId) (w : BitVec 42) (s : State) : Host.Outcome State Fault Refusal :=
  let k := startCore s c
  let v := w.toNat
  let a := vReg k (bits v 30 5)
  let kind := bits v 27 3
  .next (issue s c 4 (redFault w false) fun s =>
    let s := readHazards s c 4 [.vreg (bits v 30 5)]
    if kind = 5 then vPrefix s c k w
    else vPush s c (nowOf s c + 8) (bits v 35 5)
      (padLanes ((redTree (redOp (bits v 40 2) kind) (bits v 24 3) (redLeaves (vLen k) a)).map (rootLane (bits v 40 2) kind)))
      (bytesOf a) (vOrg k 0x1C w))

/-- VRED_PREFIX: kind 5 (R122). -/
def execVredPrefix (c : CoreId) (w : BitVec 42) (s : State) : Host.Outcome State Fault Refusal :=
  let k := startCore s c
  .next (issue s c 4 (redFault w true) fun s => vPrefix (readHazards s c 4 [.vreg (bits w.toNat 30 5)]) c k w)

/-! ### Top-k (R123) -/

/-- The conditions of a vtopk (R112, R123). -/
def topkFault (w : BitVec 42) : Option Nat :=
  let v := w.toNat
  if decide (bits v 40 2 = 3) || bit v 35 || decide (bits v 0 20 ≠ 0) || (decide (bits v 40 2 = 2) && decide (bits v 20 4 ≠ 0))
  then some 0x05 else none

/-- A candidate: value, index, and whether it is of the current list. -/
structure Cand where
  val  : Word
  idx  : Word
  old  : Bool
deriving DecidableEq, Repr

/-- A candidate stands before another (R123): larger value, lower index, the list's first. -/
def candFirst (a b : Cand) : Bool :=
  if fvLt (fv32 b.val) (fv32 a.val) then true
  else if fvLt (fv32 a.val) (fv32 b.val) then false
  else if a.idx.ult b.idx then true
  else if b.idx.ult a.idx then false
  else a.old || !b.old

/-- A candidate put in its place. -/
def candInsert (x : Cand) : List Cand → List Cand
  | [] => [x]
  | y :: r => if candFirst x y then x :: y :: r else y :: candInsert x r

/-- The candidates of a vtopk (R123). -/
def topkCands (k : Core) (w : BitVec 42) : List Cand :=
  let v := w.toNat
  let mode := bits v 40 2
  let a := vReg k (bits v 30 5)
  let ix := vReg k ((bits v 30 5 + 1) % 32)
  let n := bits v 24 6 + 1
  let vals := vReg k (bits v 35 5)
  let idxs := vReg k (bits v 35 5 + 1)
  let list := (List.range n).map fun i => (⟨laneW vals i, laneW idxs i, true⟩ : Cand)
  let new := (List.range (vLen k)).map fun i =>
    (⟨laneW a i, if mode = 2 then laneW ix i else gReg k (bits v 20 4) + BitVec.ofNat 32 i, false⟩ : Cand)
  (if mode = 0 then [] else list.filter fun x => x.idx != 0xFFFFFFFF) ++ new

/-- What a vtopk reads: the candidates, its list unless it starts one, the indices of mode 2 (R123). -/
def topkReads (w : BitVec 42) : List Src :=
  let v := w.toNat
  let mode := bits v 40 2
  .vreg (bits v 30 5) :: (if mode = 2 then [.vreg ((bits v 30 5 + 1) % 32)] else []) ++
    (if mode = 0 then [] else [.vreg (bits v 35 5), .vreg (bits v 35 5 + 1)])

/-- VTOPK (R123). -/
def execVtopk (c : CoreId) (w : BitVec 42) (s : State) : Host.Outcome State Fault Refusal :=
  let k := startCore s c
  let v := w.toNat
  let n := bits v 24 6 + 1
  let a := vReg k (bits v 30 5)
  .next (issue s c 4 (topkFault w) fun s =>
    let s := readHazards s c 4 (topkReads w)
    let cs := topkCands k w
    let nan := cs.any fun x => (fv32 x.val).isNan
    let srt := (cs.filter fun x => !(fv32 x.val).isNan).foldr candInsert []
    let out := fun (f : Cand → Word) (d : Word) => (List.range 128).map fun i =>
      if i < n ∧ vLen k ≠ 0 then wholeLane (((srt[i]?).map f).getD d) else noLane
    let vals := (out (·.val) 0xFF800000).map fun (x : LaneOut) => (x.1, false, nan)
    let o := vOrg k 0x1D w
    vPush (vPush s c (nowOf s c + 12) (bits v 35 5) vals (bytesOf a) o) c (nowOf s c + 12) (bits v 35 5 + 1)
      (out (·.idx) 0xFFFFFFFF) (bytesOf a) o)

/-! ### Landings (R115, R116, R129, R130) -/

/-- A residue mismatch or parity error of a V result (R129). -/
def vectorFailed (s : State) (c : CoreId) (i : VItem) : State :=
  let s := raiseFlags s c 0x200 0 i.org false false false true
  let s := updCore s c (ecrBump 0x20A 0)
  let d := drawFree s
  checkFailed d.2 c ⟨3, i.org, freeNat d.1 0, freeNat d.1 8, i.ops.take 32, 0, i.ops, []⟩ 0x8A false

/-- One V result at its register (R116), its flags set (R130), its residue judged (R129). -/
def landV (c : CoreId) (bad : Bool) (s : State) (i : VItem) : State :=
  let s := updCore s c fun k => setV i.vd (mergeV (vReg k i.vd) i.vals) k
  let s := raiseFlags s c 0x200 0 i.org i.sat false i.nan false
  if bad then vectorFailed s c i else s

/-- V_RESULT_LANDING (R115, R116, R129, R130): the results due in this schedule cycle, in issue order. A mismatch is charged to the
earliest-issued of them (DESIGN CHOICE: assumption log, 97). -/
def execVResultLanding (c : CoreId) (bad : Bool) (s : State) : Host.Outcome State Fault Refusal :=
  let now := schedNow (getCh s (chOf c))
  let due := (getCore s c).vPipe.filter fun i => decide (i.due ≤ now)
  let s := resultHazards s c ((getCore s c).drains.filter fun i => decide (i.due ≤ now)) due
  let s := updCore s c fun k => { k with vPipe := k.vPipe.filter fun i => decide (now < i.due) }
  .next (due.zipIdx.foldl (fun s i => landV c (bad && i.2 == 0) s i.1) s)

end Sys2Proof.Machine
end

