-- ==== Sys2Proof/Machine/Update.lean ====
section
/-! DEFINITION. Update: the parameter-update operations of the V slot (R132, R179-R185, Tables 8.1-8.4). -/

namespace Sys2Proof.Machine

/-- The fields of a vupd (Table 8.1). -/
structure UpdF where
  vd  : Nat
  va  : Nat
  vb  : Nat
  vs  : Nat
  vh  : Nat
  vf  : Nat
  ixl : Nat
  ixr : Bool
  fz  : Bool
  g   : Nat
  h   : Nat
  low : Nat
deriving DecidableEq, Repr

def updF (w : BitVec 42) : UpdF :=
  let v := w.toNat
  { vd := bits v 37 5, va := bits v 32 5, vb := bits v 27 5, vs := bits v 22 5, vh := bits v 17 5, vf := bits v 12 5, ixl := bits v 10 2,
    ixr := bit v 9, fz := bit v 8, g := bits v 4 4, h := bits v 3 1, low := bits v 0 3 }

/-- The conditions of a vupd (R179): a field that the operation does not use must be zero. -/
def updFault (op : Nat) (w : BitVec 42) : Option Nat :=
  let f := updF w
  if decide (f.low ≠ 0) || (decide (op ≠ 0x24) && decide (f.vs ≠ 0)) || (!f.fz && decide (f.vf ≠ 0)) || (!f.ixr && decide (f.ixl ≠ 0)) ||
      (decide (op ≠ 0x26) && decide (f.g ≠ 0 ∨ f.h ≠ 0)) || (decide (op = 0x26) && (f.fz || decide (f.vb ≠ 0 ∨ f.vh ≠ 0)))
  then some 0x05 else none

/-- The elements of vh an operation reads (Table 8.3). -/
def hyperOf (op : Nat) : List Nat :=
  match op with
  | 0x20 => [2]
  | 0x21 => [0, 1]
  | 0x22 => [2, 3]
  | 0x23 => [4, 5]
  | 0x24 => [0, 1, 6, 7, 8]
  | 0x25 => [9]
  | 0x27 => [0, 1, 10]
  | _ => []

/-- p − η × (x + λ × p), exactly. -/
def stepFrom (h : Nat → FV) (p x : FV) : FV :=
  fvAdd p (fvNeg (fvMul (h 0) (fvAdd x (fvMul (h 1) p))))

/-- The result of Table 8.2 before its rounding: hyperparameters, va, vb, vs, and the diagonal indicator. -/
def updVal (op : Nat) (h : Nat → FV) (a b x : FV) (diag : Bool) : FV :=
  match op with
  | 0x20 => fvAdd (fvMul (h 2) a) b
  | 0x21 => stepFrom h a b
  | 0x22 => fvAdd (fvMul (h 2) a) (fvMul (h 3) b)
  | 0x23 => fvAdd (fvMul (h 4) a) (fvMul (fvMul (h 5) b) b)
  | 0x24 =>
    let q := (round32 (fvAdd (fvMul (h 7) x) (h 8))).fv
    stepFrom h a (fvMul (fvMul (h 6) b) (fnRsqrt q).fv)
  | 0x25 => fvAdd (fvMul (h 9) a) b
  | 0x26 => fvScale (fvAdd (.fin false (if diag then 5 else 0) 0) (fvNeg a)) (-2)
  | _ => stepFrom h a (fvMul (h 10) b)

/-- Whether a lane is frozen (R183). -/
def frozen (fz : Bool) (m : List Word) (i : Nat) : Bool :=
  fz && ((laneW m i).getLsbD 0 || (laneW m (i / 32 * 32)).getLsbD 1)

/-- The registers a vupd reads, with its loop index added (R180). -/
def updRegs (k : Core) (f : UpdF) : List Word × List Word × List Word :=
  (vReg k (vIdx k f.va f.ixr f.ixl), vReg k (vIdx k f.vb f.ixr f.ixl), vReg k (vIdx k f.vs f.ixr f.ixl))

/-- Whether a lane reads a NaN or an infinity among the operands its operation has (R184). -/
def updBad (op : Nat) (a b x : Word) : Bool :=
  (fv32 a).bad || (decide (op ≠ 0x26) && (fv32 b).bad) || (decide (op = 0x24) && (fv32 x).bad)

/-- Every lane of a vupd (R182-R184). -/
def updLanes (k : Core) (op : Nat) (f : UpdF) : List LaneOut :=
  let r := updRegs k f
  let hv := vReg k f.vh
  let h := fun n => fv32 (laneW hv n)
  let m := vReg k f.vf
  let n := vLen k
  let hbad := (hyperOf op).any fun i => (h i).bad
  let live := fun i => decide (i < n) && !frozen f.fz m i
  let skipped := fun j => hbad || (List.range 32).any fun i =>
    live (32 * j + i) && updBad op (laneW r.1 (32 * j + i)) (laneW r.2.1 (32 * j + i)) (laneW r.2.2 (32 * j + i))
  let skips := (List.range 4).map skipped
  (List.range 128).map fun i =>
    if !decide (i < n) then noLane
    else if frozen f.fz m i then wholeLane (laneW r.1 i)
    else if skips.getD (i / 32) false then ((laneW r.1 i, BitVec.allOnes 32), false, true)
    else convLane (round32 (updVal op h (fv32 (laneW r.1 i)) (fv32 (laneW r.2.1 i)) (fv32 (laneW r.2.2 i))
      (decide ((gReg k f.g).toNat = 128 * f.h + i))))

/-- What a vupd reads at issue (Tables 8.1, 8.2). -/
def updReads (k : Core) (op : Nat) (f : UpdF) : List Src :=
  let r := fun n => Src.vreg (vIdx k n f.ixr f.ixl)
  r f.va :: (if op = 0x26 then [] else [r f.vb, .vreg f.vh]) ++ (if op = 0x24 then [r f.vs] else []) ++ (if f.fz then [.vreg f.vf] else [])

/-- An operation that reads a NaN or infinite element of vh skips its blocks and sets NAN once, frozen lanes or not (R184). -/
def updHyperBad (k : Core) (op : Nat) (f : UpdF) : Bool :=
  decide (0 < vLen k) && (hyperOf op).any fun i => (fv32 (laneW (vReg k f.vh) i)).bad

/-- The lanes of a vupd with the NAN of skipped blocks that write no lane of their own (R184). -/
def updResult (k : Core) (op : Nat) (f : UpdF) : List LaneOut :=
  if updHyperBad k op f then (updLanes k op f).map fun x => (x.1, x.2.1, true) else updLanes k op f

/-- A vupd (R180-R185). -/
def vUpd (s : State) (c : CoreId) (op : Nat) (w : BitVec 42) : Host.Outcome State Fault Refusal :=
  let k := startCore s c
  let f := updF w
  let lat := if op = 0x24 then (if k.profile = 2 then 22 else 24) else 8
  let r := updRegs k f
  .next (issue s c 4 (updFault op w) fun s =>
    vPush (readHazards s c 4 (updReads k op f)) c (nowOf s c + lat) (vIdx k f.vd f.ixr f.ixl) (updResult k op f) (bytesOf r.1 ++ bytesOf r.2.1) (vOrg k op w))

/-- UMOM (R182). -/
def execUmom (c : CoreId) (w : BitVec 42) (s : State) : Host.Outcome State Fault Refusal :=
  vUpd s c 0x20 w

/-- USGD (R182). -/
def execUsgd (c : CoreId) (w : BitVec 42) (s : State) : Host.Outcome State Fault Refusal :=
  vUpd s c 0x21 w

/-- UADM1 (R182). -/
def execUadm1 (c : CoreId) (w : BitVec 42) (s : State) : Host.Outcome State Fault Refusal :=
  vUpd s c 0x22 w

/-- UADM2 (R182). -/
def execUadm2 (c : CoreId) (w : BitVec 42) (s : State) : Host.Outcome State Fault Refusal :=
  vUpd s c 0x23 w

/-- UADP (R182). -/
def execUadp (c : CoreId) (w : BitVec 42) (s : State) : Host.Outcome State Fault Refusal :=
  vUpd s c 0x24 w

/-- UKST (R182). -/
def execUkst (c : CoreId) (w : BitVec 42) (s : State) : Host.Outcome State Fault Refusal :=
  vUpd s c 0x25 w

/-- UKNS (R182). -/
def execUkns (c : CoreId) (w : BitVec 42) (s : State) : Host.Outcome State Fault Refusal :=
  vUpd s c 0x26 w

/-- UKAP (R182). -/
def execUkap (c : CoreId) (w : BitVec 42) (s : State) : Host.Outcome State Fault Refusal :=
  vUpd s c 0x27 w

end Sys2Proof.Machine
end

