-- ==== Sys2Proof/Machine/Rows.lean ====
section
/-! DEFINITION. Rows: the conditions that each slot's instruction finds at issue, over the functions their meanings use (R50, R51), and
those of them that a program shows without a register's value (R241). -/

namespace Sys2Proof.Machine

/-- The condition an instruction of a core finds at issue, the core as it stands at the start of the cycle; none for a command that no
slot issues. -/
def slotFault (s : State) (c : CoreId) (k : Core) (now : Nat) (i : Instr) : Option Nat :=
  match i with
  | .loop _ lvl src gi rsv len => loopFault k lvl src gi rsv len
  | .setc _ _ rsv _ => rsvFault rsv
  | .skip _ _ _ _ rsv win => skipFault rsv win
  | .step _ rsv => rsvFault rsv
  | .done _ rsv => rsvFault rsv
  | .hlt _ gi sense rsv reason => hltFault k gi sense rsv reason
  | .add _ _ _ _ rsv => rsvFault rsv
  | .sub _ _ _ _ rsv => rsvFault rsv
  | .mul _ _ _ _ rsv => rsvFault rsv
  | .mulh _ _ _ _ rsv => rsvFault rsv
  | .mulhu _ _ _ _ rsv => rsvFault rsv
  | .min _ _ _ _ rsv => rsvFault rsv
  | .max _ _ _ _ rsv => rsvFault rsv
  | .and _ _ _ _ rsv => rsvFault rsv
  | .or _ _ _ _ rsv => rsvFault rsv
  | .xor _ _ _ _ rsv => rsvFault rsv
  | .sll _ _ _ _ rsv => rsvFault rsv
  | .srl _ _ _ _ rsv => rsvFault rsv
  | .sra _ _ _ _ rsv => rsvFault rsv
  | .seq _ _ _ _ rsv => rsvFault rsv
  | .sne _ _ _ _ rsv => rsvFault rsv
  | .slt _ _ _ _ rsv => rsvFault rsv
  | .sltu _ _ _ _ rsv => rsvFault rsv
  | .sel _ _ _ _ rsv => rsvFault rsv
  | .clz _ _ _ rs2 rsv => oneFault rs2 rsv
  | .popc _ _ _ rs2 rsv => oneFault rs2 rsv
  | .addi _ _ _ _ => none
  | .andi _ _ _ _ => none
  | .ori _ _ _ _ => none
  | .xori _ _ _ _ => none
  | .seqi _ _ _ _ => none
  | .slti _ _ _ _ => none
  | .sltiu _ _ _ _ => none
  | .slli _ _ _ imm => shiftFault imm
  | .srli _ _ _ imm => shiftFault imm
  | .srai _ _ _ imm => shiftFault imm
  | .li _ _ _ => none
  | .lui _ _ _ => none
  | .lw _ _ base off => dataFault k (effAddr k base off) 4 false
  | .lh _ _ base off => dataFault k (effAddr k base off) 2 false
  | .lhu _ _ base off => dataFault k (effAddr k base off) 2 false
  | .lb _ _ base off => dataFault k (effAddr k base off) 1 false
  | .lbu _ _ base off => dataFault k (effAddr k base off) 1 false
  | .sw _ _ base off => dataFault k (effAddr k base off) 4 true
  | .sh _ _ base off => dataFault k (effAddr k base off) 2 true
  | .sb _ _ base off => dataFault k (effAddr k base off) 1 true
  | .mte _ gi addr rsv => mteFault k gi addr rsv
  | .mfe _ _ addr rsv => mfeFault addr rsv
  | .mtc _ _ gi rsv => mtcFault k gi rsv
  | .mfl _ _ _ rsv => rsvFault rsv
  | .rdt _ _ sel rsv => rdtFault sel rsv
  | .load _ ind kind reg gi addr _ => loadFault k ind kind.toNat reg gi addr
  | .accPreload _ ind reg gi addr _ => loadFault k ind 4 reg gi addr
  | .store _ ind kind _ gi addr => storeFault k ind kind.toNat gi addr
  | .mmx _ w => mulFault k now w false
  | .mmxe _ w => mulFault k now w true
  | .mclr _ w => lowZero w 40
  | .mdrn _ w => drnFault s k now w
  | .mraw _ w => mrawFault k now w
  | .mimg _ w => mimgFault k w
  | .mchk _ w => lowZero w 34
  | .vadd _ w => vFault s k 0x01 w
  | .vsub _ w => vFault s k 0x02 w
  | .vmul _ w => vFault s k 0x03 w
  | .vfma _ w => vFault s k 0x04 w
  | .vfnma _ w => vFault s k 0x05 w
  | .vmin _ w => vFault s k 0x06 w
  | .vmax _ w => vFault s k 0x07 w
  | .vabs _ w => vFault s k 0x08 w
  | .vneg _ w => vFault s k 0x09 w
  | .vcmp _ w => vFault s k 0x0a w
  | .vsel _ w => vFault s k 0x0b w
  | .vand _ w => vFault s k 0x0c w
  | .vor _ w => vFault s k 0x0d w
  | .vxor _ w => vFault s k 0x0e w
  | .vsll _ w => vFault s k 0x0f w
  | .vsrl _ w => vFault s k 0x10 w
  | .vsra _ w => vFault s k 0x11 w
  | .vmov _ w => vFault s k 0x12 w
  | .vrand _ w => vFault s k 0x14 w
  | .vfnExp2 _ w => vFault s k 0x13 (BitVec.ofNat 42 (w.toNat * 16 + 0))
  | .vfnLog2 _ w => vFault s k 0x13 (BitVec.ofNat 42 (w.toNat * 16 + 1))
  | .vfnReciprocal _ w => vFault s k 0x13 (BitVec.ofNat 42 (w.toNat * 16 + 2))
  | .vfnRsqrt _ w => vFault s k 0x13 (BitVec.ofNat 42 (w.toNat * 16 + 3))
  | .vfnTanh _ w => vFault s k 0x13 (BitVec.ofNat 42 (w.toNat * 16 + 4))
  | .vfnSigmoid _ w => vFault s k 0x13 (BitVec.ofNat 42 (w.toNat * 16 + 5))
  | .vfnSilu _ w => vFault s k 0x13 (BitVec.ofNat 42 (w.toNat * 16 + 6))
  | .vfnGelu _ w => vFault s k 0x13 (BitVec.ofNat 42 (w.toNat * 16 + 7))
  | .vfnSin _ w => vFault s k 0x13 (BitVec.ofNat 42 (w.toNat * 16 + 8))
  | .vfnCos _ w => vFault s k 0x13 (BitVec.ofNat 42 (w.toNat * 16 + 9))
  | .vcvt _ w => cvtFault s k w
  | .vbenc _ w => bencFault s k w
  | .vbpack _ w => packFault w false
  | .vbunpk _ w => packFault w true
  | .vred _ w => redFault w false
  | .vredPrefix _ w => redFault w true
  | .vtopk _ w => topkFault w
  | .umom _ w => updFault 0x20 w
  | .usgd _ w => updFault 0x21 w
  | .uadm1 _ w => updFault 0x22 w
  | .uadm2 _ w => updFault 0x23 w
  | .uadp _ w => updFault 0x24 w
  | .ukst _ w => updFault 0x25 w
  | .ukns _ w => updFault 0x26 w
  | .ukap _ w => updFault 0x27 w
  | .sget _ ring gi greg disp _ => sgetFault s c k ring.toNat gi.toNat greg disp
  | .sput _ ring gi greg disp => sputFault s c k now ring.toNat gi.toNat greg disp
  | .sdue _ ring gi greg disp => pointFault k ring.toNat gi greg disp
  | .srel _ ring gi greg disp => srelFault k now ring.toNat gi greg disp
  | .sdrain _ ring gi greg disp => pointFault k ring.toNat gi greg disp
  | .send _ conn src lo => sendFault k conn.toNat src lo
  | .recv _ qn dst vd rsv unit => recvFault k qn.toNat dst vd rsv unit
  | .xSel _ mask _ _ _ _ rsv => xSelFault k mask rsv
  | .wait _ obj _ _ rsv => waitFault s (chOf c) k obj.toNat rsv
  | .signal _ obj inc => signalFault s (chOf c) k obj.toNat inc.toNat
  | .couple _ conn rsv => coupleFault k conn.toNat rsv
  | .uncouple _ conn rsv => coupleFault k conn.toNat rsv
  | _ => none

/-! ### Static conditions (R241) -/

/-- A machine in which only what an encoding shows can fail: the seed slot 0 of job 0 is defined. -/
def staticState : State :=
  { State.reset with hub := { Hub.reset with jobs := [(0, { Job.reset with seeds := [(0, ⟨1, 0, true⟩)] })] } }

/-- A core of a bound and a held set, its segments ON, its groups fast or exact. -/
def staticCore (bound : Nat) (held : List HeldRec) (exact : Bool) : Core :=
  { Core.reset with
    job := 0
    bound := bound
    segs := (List.range 8).map fun n => (n, ⟨.on, 0, false⟩)
    held := held
    stepMap := [⟨none, 0, 0, 0⟩]
    groups := (List.range 4).map fun j => (j, ⟨exact, [], [], [], [], 0⟩) }

/-- What reasons count: the encoding reasons, and the immediate-address cases (R241). -/
def staticReason (r : Nat) : Bool :=
  decide (r ≤ 0x12 ∨ (0x21 ≤ r ∧ r ≤ 0x23) ∨ r = 0x2C)

/-- The condition an instruction shows by its encoding alone, against a bound and the held records of its step. -/
def staticFault (bound : Nat) (held : List HeldRec) (i : Instr) : Option Nat :=
  let k := staticCore bound held false
  let fault := slotFault staticState 0 k 0 i
  match i with
  | .loop _ _ src gi rsv len => firstFault [(rsv != 0 || (!src && gi != 0), 0x08), (len == 0, 0x09)]
  | .hlt _ _ _ rsv reason => firstFault [(rsv != 0, 0x08), (decide (reason.toNat < 0x90 ∨ 0x9F < reason.toNat), 0x12)]
  | .lw _ _ _ _ => none
  | .lh _ _ _ _ => none
  | .lhu _ _ _ _ => none
  | .lb _ _ _ _ => none
  | .lbu _ _ _ _ => none
  | .sw _ _ _ _ => none
  | .sh _ _ _ _ => none
  | .sb _ _ _ _ => none
  | .load _ ind kind reg gi _ _ => if ind then loadEncFault ind kind.toNat reg gi else fault.filter staticReason
  | .accPreload _ ind reg gi _ _ => if ind then loadEncFault ind 4 reg gi else fault.filter staticReason
  | .store _ ind kind _ _ _ =>
    if ind then firstFault [(decide (5 ≤ kind.toNat), 0x03), (decide (kind ≠ 0), 0x10)] else fault.filter staticReason
  | .mmxe _ _ => (slotFault staticState 0 (staticCore bound held true) 0 i).filter staticReason
  | .mraw _ _ => (slotFault staticState 0 (staticCore bound held true) 0 i).filter staticReason
  | .mimg _ w => lowZero w 41
  | .send _ _ src lo => sendEncFault k src lo
  | _ => fault.filter staticReason

/-- setc and mtc of one level in one row word (Table 2.12). -/
def bothSet (p c : SlotRead) : Bool :=
  match p, c with
  | .ok (some (.setc _ l _ _)), .ok (some (.mtc _ m _ _)) => l == m
  | _, _ => false

end Sys2Proof.Machine
end

