-- ==== Sys2Proof/Machine/Verify.lean ====
section
/-! DEFINITION. Verify: the image's records (R236, Tables 11.1-11.10) and what the verifier rejects (R241, Table 11.11): pure checks over
bytes, each naming the first failure it finds. -/

namespace Sys2Proof.Machine

/-- A rejection (Table 11.12). -/
structure Rej where
  code    : Nat
  halt    : Nat
  slot    : Nat
  section_ : Nat
  task    : Nat
  offset  : Nat
deriving DecidableEq, Repr

/-- A rejection that names only a section and a byte offset. -/
def Rej.at_ (code sec off : Nat) : Rej :=
  ⟨code, 0, 7, sec, 0xFFFFFFFF, off⟩

/-- The 128 bits of Table 11.12. -/
def rejBits (r : Rej) : Nat :=
  r.code * 2 ^ 120 + r.halt * 2 ^ 112 + r.slot * 2 ^ 109 + r.section_ % 2 ^ 16 * 2 ^ 80 + r.task % 2 ^ 32 * 2 ^ 48 + r.offset % 2 ^ 48

/-- The first rejection of a list of checks. -/
def firstRej : List (Option Rej) → Option Rej
  | [] => none
  | some r :: _ => some r
  | none :: l => firstRej l

/-- Records of n bytes. -/
def recsOf (n : Nat) (bs : List Byte) : List (List Byte) :=
  chunksOf n (bs.length / n) bs

/-! ### The manifest (R236, R237) -/

/-- SECTIONS, HASHES, TASKS, LENGTH and MODULES of a header. -/
def hdrSections (h : List Byte) : Nat := fld h 6 2
def hdrHashes (h : List Byte) : Nat := fld h 8 4
def hdrTasks (h : List Byte) : Nat := fld h 12 4
def hdrLength (h : List Byte) : Nat := fld h 16 8
def hdrModules (h : List Byte) : Nat := fld h 28 2

/-- The bytes of a manifest with its trailer. -/
def manifestLen (h : List Byte) : Nat :=
  256 + 64 * hdrSections h + 32 * hdrHashes h + 96

/-- A profile this stepping implements (Table 0.1, R245). -/
def profileOk (p : Nat) : Bool :=
  p == 1 || (p == 2 && Config.isB1)

/-- An operating point (Table 10.8). -/
def isOpPoint (v : Nat) : Bool :=
  decide (v = 850 ∨ v = 750 ∨ v = 600 ∨ v = 400)

/-- A check, with the number of bytes that must have arrived before it can be made (R241). -/
abbrev Timed := Nat × Option Rej

/-- A timed check that finds a rejection where a condition holds. -/
def Timed.ifBad (need : Nat) (bad : Bool) (r : Rej) : Timed :=
  (need, if bad then some r else none)

/-- The first failure, in arrival order, of the checks whose bytes came whole between a length and a length (R241); checks made by the
same byte are taken in their own order. -/
def arrivedRej (checks : List Timed) (from_ upto : Nat) : Option Rej :=
  firstRej (((checks.filter fun c => decide (from_ < c.1 ∧ c.1 ≤ upto)).mergeSort fun x y => decide (x.1 ≤ y.1)).map (·.2))

/-- The checks of the header but REQCONFIG (Table 11.1). -/
def checkHeader (h : List Byte) (debugOk : Bool) : List Timed :=
  let r := fun need code off bad => Timed.ifBad need bad (Rej.at_ code 0xFFFF off)
  [r 4 0x01 0 (slice h 0 4 != [0x56, 0x4B, 0x50, 0x31]), r 6 0x01 4 (fld h 4 2 != 1), r 8 0x01 6 (hdrSections h == 0),
   r 16 0x01 12 (decide (hdrTasks h = 0 ∨ 2097152 < hdrTasks h)), r 25 0x20 24 (!profileOk (fld h 24 1)), r 26 0x21 25 (fld h 25 1 != 1),
   r 28 0x23 26 (!isOpPoint (fld h 26 2)), r 30 0x01 28 (decide (hdrModules h = 0 ∨ 4096 < hdrModules h)),
   r 31 0x01 30 (decide (2 ≤ fld h 30 1)), r 31 0x24 30 (bit (fld h 30 1) 0 && !debugOk), r 32 0x01 31 (!zeroAt h 31 1),
   r 256 0x01 64 (!zeroAt h 64 192)]

/-- The configuration hash under a profile (R246). -/
def configHash (profile : Nat) : List Byte :=
  sm3 ([1] ++ leBytes 1 profile ++ zeros 30 ++ sm3 tableBytes)

/-- REQCONFIG names another configuration (code 0x22). -/
def checkConfig (h : List Byte) : Option Rej :=
  if zeroAt h 32 32 ∨ slice h 32 32 = configHash (fld h 24 1) then none else some (Rej.at_ 0x22 0xFFFF 32)

/-- A section-table entry (Table 11.2). -/
def secOf (b : List Byte) : Sec :=
  ⟨fld b 0 1, fld b 4 4, fld b 8 8, fld b 16 8, fld b 24 8, BitVec.ofNat 256 (beNat (slice b 32 32))⟩

/-- The sections of a manifest. -/
def secsOf (m : List Byte) : List Sec :=
  (recsOf 64 (slice m 256 (64 * hdrSections m))).map secOf

/-- The bulk types: RING, DMEM, SPAD. -/
def isBulk (t : Nat) : Bool :=
  decide (0x10 ≤ t ∧ t ≤ 0x12)

/-- The types whose target is the whole image. -/
def isWhole (t : Nat) : Bool :=
  decide (t = 1 ∨ t = 2 ∨ t = 3 ∨ t = 8 ∨ t = 9 ∨ t = 0x0A)

/-- The chunks of a body. -/
def chunkCount (len : Nat) : Nat :=
  (len + 8191) / 8192

/-- The bulk sections before one, and their chunks: where its hashes stand in the hash list. -/
def hashBase (secs : List Sec) (n : Nat) : Nat :=
  (((secs.take n).filter fun x => isBulk x.type).map fun x => chunkCount x.length).sum

/-- The hash of a chunk of a bulk section. -/
def chunkHash (m : List Byte) (secs : List Sec) (n c : Nat) : List Byte :=
  slice m (256 + 64 * hdrSections m + 32 * (hashBase secs n + c)) 32

/-- The conditions of one table entry: type and target, reserved fields, body place. -/
def checkEntry (m : List Byte) (n : Nat) (b : List Byte) : Option Rej :=
  let e := secOf b
  let h := hdrTasks m
  let r := fun code off => some (Rej.at_ code 0xFFFF (256 + 64 * n + off))
  let mustZero := !(e.type = 0x11 ∨ e.type = 0x12)
  if !((1 ≤ e.type ∧ e.type ≤ 0x0A) ∨ isBulk e.type) then r 0x03 0
  else if !zeroAt b 1 3 then r 0x06 1
  else if isWhole e.type ≠ (e.target == 0xFFFFFFFF) then r 0x03 4
  else if !isWhole e.type ∧ e.target < 2 ^ 31 ∧ h ≤ e.target then r 0x03 4
  else if e.offset % 8 ≠ 0 ∨ e.offset < manifestLen m ∨ hdrLength m < e.offset + e.length then r 0x02 8
  else if mustZero ∧ e.aux ≠ 0 then r 0x06 24
  else if (e.type = 0x11 ∧ 65536 < e.aux + e.length) ∨ (e.type = 0x12 ∧ (e.aux % 256 ≠ 0 ∨ 65536 * 32 < e.aux * 32 + e.length)) ∨
      (e.type = 0x10 ∧ (e.length = 0 ∨ e.length % 32 ≠ 0)) then r 0x02 16
  else none

/-- Two bodies overlap. -/
def bodiesMeet : List Sec → Bool
  | [] => false
  | e :: r => (r.any fun x => decide (0 < e.length ∧ 0 < x.length) && decide (e.offset < x.offset + x.length ∧ x.offset < e.offset + e.length)) ||
      bodiesMeet r

/-- A bulk section's HASH is not that of its chunk hashes. -/
def bulkHashBad (m : List Byte) (secs : List Sec) (n : Nat) (e : Sec) : Bool :=
  isBulk e.type &&
    (sm3 (slice m (256 + 64 * hdrSections m + 32 * hashBase secs n) (32 * chunkCount e.length)) != beBytes 32 e.hash.toNat)

/-- The image hash (R237). -/
def imageHash (m : List Byte) : List Byte :=
  sm3 (m.take (m.length - 96))

/-- The checks of the section table as its entries come (Tables 11.2, 11.3): each entry by itself, its body against the bodies before it, a
type that stands once; with the last entry the counts of the header, and TASKS is there. -/
def tableChecks (m : List Byte) : List Timed :=
  let secs := secsOf m
  let whole := 256 + 64 * hdrSections m
  let hashes := (secs.filter fun x => isBulk x.type).map fun x => chunkCount x.length
  ((recsOf 64 (slice m 256 (64 * hdrSections m))).zipIdx.flatMap fun e =>
    let need := 256 + 64 * (e.2 + 1)
    let x := secOf e.1
    let before := secs.take e.2
    [(need, checkEntry m e.2 e.1),
     Timed.ifBad need (before.any fun y => bodiesMeet [x, y]) (Rej.at_ 0x02 0xFFFF (256 + 64 * e.2 + 8)),
     Timed.ifBad need (isWhole x.type && x.type != 0x0A && before.any fun y => y.type == x.type) (Rej.at_ 0x03 0xFFFF (256 + 64 * e.2))]) ++
    [Timed.ifBad whole (decide (hashes.sum ≠ hdrHashes m ∨ hdrLength m < manifestLen m)) (Rej.at_ 0x02 0xFFFF 8),
     Timed.ifBad whole (!secs.any fun y => y.type == 1) (Rej.at_ 0x03 0xFFFF 256)]

/-- The checks of the chunk hash list, each once a section's chunk hashes have come (Table 11.2, HASH). -/
def hashChecks (m : List Byte) : List Timed :=
  let secs := secsOf m
  secs.zipIdx.map fun e => Timed.ifBad (256 + 64 * hdrSections m + 32 * (hashBase secs (e.2 + 1))) (bulkHashBad m secs e.2 e.1) (Rej.at_ 0x04 e.2 0)

/-- The checks of the trailer: the key's hash, then the signature (R237); `keys` are the registered owner keys. -/
def trailerChecks (m : List Byte) (keys : List (List Byte)) : List Timed :=
  let n := manifestLen m
  let trailer := slice m (n - 96) 96
  match keys.find? fun k => keyHash k == trailer.take 32 with
  | none => [(n - 64, some (Rej.at_ 0x11 0xFFFF (n - 96)))]
  | some k => [Timed.ifBad n (!sm2Verify k (imageHash m) (trailer.drop 32)) (Rej.at_ 0x10 0xFFFF (n - 64))]

/-- The checks of the manifest after its header. -/
def checkManifest (m : List Byte) (keys : List (List Byte)) : List Timed :=
  tableChecks m ++ hashChecks m ++ trailerChecks m keys

/-! ### Records of the small sections -/

/-- A task record (Table 11.4). -/
structure TaskRec where
  module_ : Nat
  ch      : Nat
  cl      : Nat
  core    : Nat
  bound   : Nat
  start   : Nat
deriving DecidableEq, Repr

def taskOf (b : List Byte) : TaskRec :=
  ⟨fld b 0 2, fld b 2 1, fld b 3 1, fld b 4 1, fld b 6 2, fld b 8 2⟩

/-- The TASKS body's records. -/
def tasksOf (body : List Byte) : List TaskRec :=
  (recsOf 32 body).map taskOf

/-- Two tasks on one logical core. -/
def sameCore (a b : TaskRec) : Bool :=
  a.module_ == b.module_ && a.ch == b.ch && a.cl == b.cl && a.core == b.core

/-- The conditions of a task record. -/
def checkTask (modules sec n : Nat) (b : List Byte) : Option Rej :=
  let t := taskOf b
  if !zeroAt b 5 1 ∨ !zeroAt b 10 22 then some ⟨0x06, 0, 7, sec, n, 32 * n⟩
  else if modules ≤ t.module_ ∨ 4 ≤ t.ch ∨ 8 ≤ t.cl ∨ 16 ≤ t.core ∨ t.bound = 0 ∨ 512 < t.bound ∨ t.start % 256 ≠ 0 ∨ 4096 ≤ t.start
  then some ⟨0x40, 0, 7, sec, n, 32 * n⟩ else none

/-- The TASKS body. -/
def checkTasks (modules count sec : Nat) (body : List Byte) : Option Rej :=
  let ts := tasksOf body
  if body.length ≠ 32 * count then some (Rej.at_ 0x02 sec 0)
  else firstRej ((recsOf 32 body).zipIdx.map (fun e => checkTask modules sec e.2 e.1) ++
    ts.zipIdx.map fun e => if (ts.take e.2).any (sameCore e.1) then some ⟨0x40, 0, 7, sec, e.2, 32 * e.2⟩ else none)

/-- The core sets of a SETS body, at most `fuel` of them; none where it is malformed. -/
def setsOf : Nat → List Byte → Option (List (List Nat))
  | _, [] => some []
  | 0, _ => none
  | fuel + 1, bs =>
    let n := fld bs 0 4
    if bs.length < 4 + 4 * n then none
    else (setsOf fuel (bs.drop (4 + 4 * n))).map fun r => ((List.range n).map fun i => fld bs (4 + 4 * i) 4) :: r

/-- Strictly rising numbers below a bound. -/
def risingBelow (n : Nat) (l : List Nat) : Bool :=
  l.Pairwise (· < ·) && l.all fun x => decide (x < n)

/-- The SETS body. -/
def checkSets (tasks sec : Nat) (body : List Byte) : Option Rej :=
  match setsOf body.length body with
  | none => some (Rej.at_ 0x03 sec 0)
  | some l => if l.all (risingBelow tasks) then none else some (Rej.at_ 0x03 sec 0)

/-- A region record (Table 11.5). -/
structure RegRec where
  vaddr  : Nat
  npages : Nat
  home   : Nat
  hch    : Nat
  tier   : Nat
  flags  : Nat
  task   : Nat
  rhome  : Nat
  rhch   : Nat
  rtier  : Nat
deriving DecidableEq, Repr

def regOf (b : List Byte) : RegRec :=
  ⟨fld b 0 8, fld b 8 4, fld b 12 2, fld b 14 1, fld b 15 1, fld b 16 1, fld b 20 4, fld b 24 2, fld b 26 1, fld b 27 1⟩

/-- The region records. -/
def regsOf (body : List Byte) : List RegRec :=
  (recsOf 32 body).map regOf

/-- PSZ of a region record. -/
def RegRec.psz (r : RegRec) : Nat := bits r.flags 0 1

/-- The conditions of a region record. -/
def checkReg (modules tasks sec n : Nat) (b : List Byte) : Option Rej :=
  let r := regOf b
  let size := if r.psz = 1 then 2097152 else 65536
  let rv := bit r.flags 5
  if !zeroAt b 17 3 ∨ !zeroAt b 28 4 ∨ 64 ≤ r.flags then some (Rej.at_ 0x06 sec (32 * n))
  else if r.vaddr % size ≠ 0 ∨ 2 ^ 56 ≤ r.vaddr ∨ r.npages = 0 ∨ 524288 < r.npages ∨ modules ≤ r.home ∨ 4 ≤ r.hch ∨ 3 ≤ r.tier ∨
      (r.tier = 0 ∧ tasks ≤ r.task) ∨ (r.tier ≠ 0 ∧ r.task ≠ 0xFFFFFFFF) ∨
      (rv = true ∧ (modules ≤ r.rhome ∨ 4 ≤ r.rhch ∨ (r.rtier ≠ 1 ∧ r.rtier ≠ 2)))
  then some (Rej.at_ 0x80 sec (32 * n)) else none

/-- The REGIONS body. -/
def checkRegs (modules tasks sec : Nat) (body : List Byte) : Option Rej :=
  if 64 * 32 < body.length ∨ body.length % 32 ≠ 0 then some (Rej.at_ 0x02 sec 0)
  else firstRej ((recsOf 32 body).zipIdx.map fun e => checkReg modules tasks sec e.2 e.1)

/-- A connection-table entry of 128 bits; none where VALID is 0. Its peer holds a job module index and an image channel in an image. -/
def connRec (v : Nat) : Option Conn :=
  if !bit v 127 then none
  else some { role := bits v 125 2, strict := bit v 124, peerk := bit v 123, size := bits v 120 3, queue := bits v 116 4,
              depth := bits v 112 4, pdev := bits v 100 12, pch := bits v 98 2, pcl := bits v 95 3, pcore := bits v 91 4, any := bit v 90,
              hcount := bits v 82 8, harith := bits v 80 2, hpend := bits v 76 4, digest := bit v 75, isOpen := decide (bits v 125 2 ≠ 0),
              gen := 0, seq := 0, refused := false }

/-- The table of a CONN body. -/
def connsOf (body : List Byte) : Tab Conn :=
  ((recsOf 16 body).zipIdx.filterMap fun e => (connRec (leNat e.1)).map fun c => (e.2, c)).take 64

/-- The peer fields of an entry are zero. -/
def peerZero (e : Conn) : Bool :=
  e.pdev == 0 && e.pch == 0 && e.pcl == 0 && e.pcore == 0

/-- An entry that Table 7.1 or R153 does not allow, by itself. -/
def connBad (e : Conn) : Bool :=
  decide (e.role = 3) || (e.peerk && (e.strict || decide (e.role = 2))) ||
    (if e.role = 0 then e.any || decide (e.depth ≠ 0 ∨ e.harith ≠ 0 ∨ e.hpend ≠ 0)
     else if e.role = 1 then decide (e.hcount ≠ 0 ∨ e.harith ≠ 0 ∨ e.hpend ≠ 0) || e.digest
     else decide (2 ≤ e.harith ∨ e.hpend = 0) || !([0, 1, 3, 7, 15].contains e.depth)) ||
    (e.any && !peerZero e)

/-- Two receive ends of one queue agree (R153). -/
def endsAgree (a b : Conn) : Bool :=
  a.role == b.role && a.strict == b.strict && a.size == b.size && a.depth == b.depth && a.hcount == b.hcount && a.harith == b.harith &&
    a.hpend == b.hpend && a.digest == b.digest

/-- The bytes of the receive store that a table binds (R153). -/
def storeBytes (t : Tab Conn) : Nat :=
  ((List.range 16).map fun q => match (t.filter fun e => e.2.role != 0 && e.2.queue == q).head? with
    | none => 0
    | some e => (e.2.depth + 1) * sizeBytes e.2.size * (1 + e.2.hpend)).sum

/-- A table breaks R153 within itself. -/
def tableBad (t : Tab Conn) : Bool :=
  (t.any fun e => connBad e.2) ||
    (t.any fun a => a.2.role != 0 && t.any fun b => b.2.role != 0 && b.2.queue == a.2.queue && !endsAgree a.2 b.2) ||
    decide (65536 < storeBytes t)

/-- A CONN body: reserved bits, then the rules within one table. -/
def checkConn (sec : Nat) (body : List Byte) : Option Rej :=
  if body.length ≠ 1024 then some (Rej.at_ 0x02 sec 0)
  else match (recsOf 16 body).zipIdx.find? fun e => bits (leNat e.1) 0 75 != 0 || (!bit (leNat e.1) 127 && leNat e.1 != 0) with
    | some e => some (Rej.at_ 0x06 sec (16 * e.2))
    | none => if tableBad (connsOf body) then some (Rej.at_ 0x50 sec 0) else none

/-- A send end agrees with the receive ends it names (R153). -/
def sendAgrees (e : Conn) (peer : Tab Conn) : Bool :=
  let ends := peer.filter fun x => x.2.role != 0 && x.2.queue == e.queue
  ends != [] && ends.all fun x => x.2.strict == e.strict && decide (e.size ≤ x.2.size)

/-! ### Descriptors (R141, Table 6.5) -/

/-- A descriptor of 256 bits; none where VALID is 0. -/
def descOf (v : Nat) : Option Desc :=
  if !bit v 255 then none
  else some { kind := bits v 252 3, land := bits v 250 2, bfmt := bits v 249 1, spos := bits v 247 2, scope := bits v 246 1,
              mask := bits v 230 16, region := bits v 208 16, slots := bits v 200 8, slotsz := bits v 189 11, faddr := bits v 133 56,
              stride := bits v 109 24, blocks := bits v 96 13 }

/-- A descriptor that Table 6.5 or R141 does not allow for a ring of a core in a task of a bound. -/
def descBad (core bound : Nat) (d : Desc) : Bool :=
  let fetch := decide (d.kind = 0 ∨ d.kind = 3 ∨ d.kind = 4)
  let units := if d.kind = 2 then d.slots * 2 else d.slots * d.slotsz * 8
  decide (5 ≤ d.kind) || (!fetch && decide (d.land ≠ 0)) || (decide (d.land = 0) && decide (d.bfmt ≠ 0 ∨ d.blocks ≠ 0)) ||
    (decide (d.land ≠ 0) && decide (d.blocks = 0)) || (!decide (d.land = 1 ∨ d.land = 3) && decide (d.spos ≠ 0)) ||
    (decide (d.kind ≠ 3) && decide (d.scope ≠ 0)) || (!(d.kind == 3 && d.scope == 0) && decide (d.mask ≠ 0)) ||
    (decide (d.kind = 3 ∧ d.scope = 0) && !bit d.mask (core % 16)) ||
    decide (d.region % 8 ≠ 0 ∨ d.slots < 3 ∨ 64 < d.slots) || (if d.kind = 2 then decide (d.slotsz ≠ 0) else decide (d.slotsz = 0 ∨ 1024 < d.slotsz)) ||
    (decide (d.kind = 0 ∨ d.kind = 1 ∨ d.kind = 3) && decide (d.faddr % 256 ≠ 0)) || (decide (d.kind = 2) && decide (2 ^ 23 ≤ d.faddr)) ||
    (decide (d.kind = 4) && decide (d.faddr % 65536 ≠ 0 ∨ 2 ^ 23 ≤ d.faddr ∨ d.stride ≠ 0)) ||
    decide (bound * 128 < d.region + units) || (decide (d.land ≠ 0) && decide (d.slotsz * 256 < formBytes d))

/-- A member agrees with its lead (R141, R149): the lead names it, and SLOTS, SLOTSZ, LAND, BFMT and BLOCKS are the lead's. -/
def memberAgrees (member lead : Nat) (m l : Desc) : Bool :=
  l.kind == 3 && l.land == m.land && l.bfmt == m.bfmt && l.slots == m.slots && l.slotsz == m.slotsz && l.blocks == m.blocks &&
    (l.scope == 1 || (member / 16 == lead / 16 && bit l.mask (member % 16)))

/-- The ring records of a DESC body. -/
def descsOf (body : List Byte) : List (Nat × Nat) :=
  (recsOf 36 body).map fun b => (fld b 0 1, leNat (slice b 4 32))

/-- A DESC body for a core of a task. -/
def checkDesc (sec core bound : Nat) (body : List Byte) : Option Rej :=
  if body.length % 36 ≠ 0 ∨ 32 * 36 < body.length then some (Rej.at_ 0x02 sec 0)
  else firstRej ((recsOf 36 body).zipIdx.map fun e =>
    let v := leNat (slice e.1 4 32)
    if !zeroAt e.1 1 3 ∨ bits v 0 96 ≠ 0 ∨ bits v 224 6 ≠ 0 then some (Rej.at_ 0x06 sec (36 * e.2))
    else if 32 ≤ fld e.1 0 1 ∨ ((descsOf body).take e.2).any (fun x => x.1 == fld e.1 0 1) then some (Rej.at_ 0x60 sec (36 * e.2))
    else match descOf v with
      | none => none
      | some d => if descBad core bound d then some (Rej.at_ 0x60 sec (36 * e.2)) else none)

/-! ### Step maps, held regions, seeds, patches -/

/-- The entries of a STEPMAP body. -/
def stepMapOf (body : List Byte) : List StepEntry :=
  (recsOf 32 body).map fun b => ⟨if fld b 0 8 = 2 ^ 64 - 1 then none else some (fld b 0 8), fld b 8 8, fld b 16 8, fld b 28 2⟩

/-- A STEPMAP body: reserved fields, order, the window's width. -/
def checkStepMap (sec : Nat) (body : List Byte) : Option Rej :=
  let rows := (stepMapOf body).filterMap (·.row)
  if body.length % 32 ≠ 0 then some (Rej.at_ 0x02 sec 0)
  else firstRej ((recsOf 32 body).zipIdx.map (fun e =>
      if !zeroAt e.1 30 2 then some (Rej.at_ 0x06 sec (32 * e.2))
      else if fld e.1 8 8 + 4096 ≤ fld e.1 16 8 then some (Rej.at_ 0x32 sec (32 * e.2)) else none) ++
    [if rows.Pairwise (· < ·) then none else some (Rej.at_ 0x33 sec 0)])

/-- The records of a HELD body. -/
def heldOf (body : List Byte) : List HeldRec :=
  (recsOf 16 body).map fun b => ⟨fld b 0 2, fld b 2 1, fld b 3 1, fld b 4 4, fld b 8 4⟩

/-- Two held records cover a common unit or byte. -/
def heldMeet (a b : HeldRec) : Bool :=
  a.kind == b.kind && decide (a.addr < b.addr + b.count ∧ b.addr < a.addr + a.count)

/-- A held set holds, in the steps of one parity, a record and its alternate copy. -/
def holdsBoth (recs : List HeldRec) (r p : HeldRec) : Bool :=
  recs.any fun x => x.set == r.set && (x.parity == 2 || x.parity == r.parity) && heldMeet x p

/-- A HELD body for a task of a bound. -/
def checkHeld (sec bound : Nat) (body : List Byte) : Option Rej :=
  let recs := heldOf body
  if body.length % 16 ≠ 0 then some (Rej.at_ 0x02 sec 0)
  else firstRej ((recsOf 16 body).zipIdx.map fun e =>
    let r := recs.getD e.2 ⟨0, 0, 0, 0, 0⟩
    let partner := fld e.1 12 4
    let bad :=
      decide (2 ≤ r.kind ∨ 3 ≤ r.parity ∨ r.count = 0) || decide ((if r.kind = 0 then bound * 128 else 65536) < r.addr + r.count) ||
      (if r.parity = 2 then decide (partner ≠ 0xFFFFFFFF)
       else match recs[partner]? with
        | none => true
        | some p => decide (p.parity ≠ 1 - r.parity ∨ p.count ≠ r.count) || holdsBoth recs r p)
    if bad then some (Rej.at_ 0x70 sec (16 * e.2)) else none)

/-- The SEEDS body. -/
def checkSeeds (sec : Nat) (body : List Byte) : Option Rej :=
  if body.length ≠ 4096 then some (Rej.at_ 0x02 sec 0)
  else firstRej ((recsOf 16 body).zipIdx.map fun e =>
    if !zeroAt e.1 1 7 then some (Rej.at_ 0x06 sec (16 * e.2))
    else if 2 < fld e.1 0 1 ∨ (fld e.1 0 1 ≠ 1 ∧ fld e.1 8 8 ≠ 0) then some (Rej.at_ 0x90 sec (16 * e.2)) else none)

/-- The seed slots of a SEEDS body. -/
def seedsOf (body : List Byte) : Tab Seed :=
  (recsOf 16 body).zipIdx.map fun e => (e.2, ⟨fld e.1 0 1, BitVec.ofNat 64 (fld e.1 8 8), fld e.1 0 1 == 1⟩)

/-- A PATCH body. -/
def checkPatch (secs : List Sec) (modules tasks sec : Nat) (body : List Byte) : Option Rej :=
  if body.length % 16 ≠ 0 then some (Rej.at_ 0x02 sec 0)
  else firstRej ((recsOf 16 body).zipIdx.map fun e =>
    let off := fld e.1 4 4
    let v := fld e.1 12 4
    let kind := fld e.1 8 1
    let okSec := match secs[fld e.1 0 4]? with
      | some x => (x.type == 0x11 || x.type == 0x12) && decide (off + 4 ≤ x.length)
      | none => false
    let okVal := if kind = 1 then decide (v < modules)
      else if kind = 2 then decide (bits v 2 14 = 0 ∧ bits v 28 4 = 0 ∧ bits v 16 12 < modules)
      else if kind = 3 then decide (v < tasks) else decide (kind = 4 ∧ v = 0)
    if !zeroAt e.1 9 3 then some (Rej.at_ 0x06 sec (16 * e.2))
    else if !okSec ∨ off % 4 ≠ 0 ∨ !okVal then some (Rej.at_ 0x90 sec (16 * e.2)) else none)

/-! ### Row words (R241) -/

/-- What the sequencer sees of a row. -/
inductive RowCtl where
  | plain | step | done
  | loop (lvl len : Nat)
  | skip (win : Nat)
deriving DecidableEq, Repr

/-- The P slot of a row, as the sequencer sees it. -/
def rowCtl (w : BitVec 256) : RowCtl :=
  match decodeP 0 (w.toNat / 2 ^ 224) with
  | .ok (some (.loop _ lvl _ _ _ len)) => .loop lvl.toNat len.toNat
  | .ok (some (.skip _ _ _ _ _ win)) => .skip win.toNat
  | .ok (some (.step _ _)) => .step
  | .ok (some (.done _ _)) => .done
  | _ => .plain

/-- The loops of a section: row, level, body length. -/
def loopsIn (cs : List RowCtl) : List (Nat × Nat × Nat) :=
  cs.zipIdx.filterMap fun e => match e.1 with
    | .loop lvl len => some (e.2, lvl, len)
    | _ => none

/-- The loops whose body holds a row. -/
def loopsAt (ls : List (Nat × Nat × Nat)) (i : Nat) : List (Nat × Nat × Nat) :=
  ls.filter fun l => decide (l.1 < i ∧ i ≤ l.1 + l.2.2)

/-- Where fetch can go after a row that ends bodies (R34): on, or back to the start of each body it ends. -/
def leaveRow (ls : List (Nat × Nat × Nat)) (i from_ : Nat) : List Nat :=
  (i + 1) :: ((loopsAt ls from_).filter fun l => l.1 + l.2.2 == i).map fun l => l.1 + 1

/-- The rows that can follow a row: loops take any count, skips squash nothing. -/
def succRows (cs : List RowCtl) (ls : List (Nat × Nat × Nat)) (i : Nat) : List Nat :=
  match cs[i]? with
  | none => []
  | some .done => []
  | some (.loop _ len) => (i + 1) :: leaveRow ls (i + len) i
  | _ => leaveRow ls i i

/-- The rows reachable from a list of rows; with `steps` the walk ends at step rows too. -/
def reachRows (cs : List RowCtl) (ls : List (Nat × Nat × Nat)) (steps : Bool) : Nat → List Nat → List Nat → List Nat
  | 0, _, seen => seen
  | _, [], seen => seen
  | fuel + 1, i :: todo, seen =>
    if seen.contains i then reachRows cs ls steps fuel todo seen
    else
      let next := if steps ∧ cs[i]? = some .step then [] else succRows cs ls i
      reachRows cs ls steps fuel (next ++ todo) (i :: seen)

/-- Steps enough for any walk of a section. -/
def walkFuel (cs : List RowCtl) : Nat :=
  8 * cs.length + 64

/-- The fetch set of a step: from the step row that begins it, or from the task start. -/
def fetchSet (cs : List RowCtl) (row : Option Nat) : List Nat :=
  let ls := loopsIn cs
  match row with
  | none => reachRows cs ls true (walkFuel cs) [0] []
  | some r =>
    let bodies := (loopsAt ls r).flatMap fun l => (List.range l.2.2).map fun i => l.1 + 1 + i
    reachRows cs ls true (walkFuel cs) (leaveRow ls r r) [] ++ bodies

/-- The condition of the loop structure at a row (R31, R33): codes 0x0A and 0x0B. -/
def loopStatic (ls : List (Nat × Nat × Nat)) (i : Nat) (c : RowCtl) : Option Nat :=
  match c with
  | .loop lvl len =>
    if (loopsAt ls i).any fun l => decide (lvl ≤ l.2.1) then some 0x0A
    else if (loopsAt ls i).any fun l => decide (l.1 + l.2.2 < i + len) then some 0x0B else none
  | _ => none

/-- The static condition of a row word: halt code and slot (R241). -/
def rowStatic (bound : Nat) (held : List HeldRec) (w : BitVec 256) : Option (Nat × Nat) :=
  let rs := decodeRow 0 w
  if (match rs with
    | p :: q :: _ => bothSet p q
    | _ => false) then some (0x0D, 0)
  else (rs.zipIdx.filterMap fun e => match e.1 with
    | .error r => some (r, e.2)
    | .ok none => none
    | .ok (some i) => (staticFault bound held i).map fun r => (r, e.2)).head?

/-- The steps that can run, each as the row that begins it and the parity of its number: step 0 begins at task start, and each step row
that a step can reach begins a step of the other parity. -/
def stepWalk (cs : List RowCtl) : Nat → List (Option Nat × Nat) → List (Option Nat × Nat) → List (Option Nat × Nat)
  | 0, _, seen => seen
  | _, [], seen => seen
  | fuel + 1, x :: todo, seen =>
    if seen.contains x then stepWalk cs fuel todo seen
    else
      let rows := (fetchSet cs x.1).filter fun i => cs[i]? == some .step
      stepWalk cs fuel (rows.map (fun r => (some r, 1 - x.2)) ++ todo) (x :: seen)

/-- The steps that a section's tasks can run. -/
def stepsRun (cs : List RowCtl) : List (Option Nat × Nat) :=
  let steps := (cs.filter fun c => c == .step).length
  stepWalk cs ((2 * steps + 2) * (steps + 1)) [(none, 0)] []

/-- The records held in some step that can fetch a row (R142, R241): those of every step, and those of a parity in which the step can run. -/
def heldAtRow (cs : List RowCtl) (m : List StepEntry) (held : List HeldRec) (i : Nat) : List HeldRec :=
  let runs := stepsRun cs
  held.filter fun h => m.any fun e =>
    e.held == h.set && (fetchSet cs e.row).contains i && runs.any fun x => x.1 == e.row && (h.parity == 2 || h.parity == x.2)

/-- One row of a RING section of `n` rows: 0x30 with its halt code and slot, 0x31 for a body or window that passes the end. -/
def checkRow (sec task bound n : Nat) (cs : List RowCtl) (m : List StepEntry) (held : List HeldRec) (ls : List (Nat × Nat × Nat))
    (i : Nat) (w : BitVec 256) : Option Rej :=
  let c := rowCtl w
  match rowStatic bound ((heldAtRow cs m held i).map fun h => { h with set := 0, parity := 2 }) w with
  | some (r, slot) => some ⟨0x30, r, slot, sec, task, i⟩
  | none => match loopStatic ls i c with
    | some r => some ⟨0x30, r, 0, sec, task, i⟩
    | none => match c with
      | .loop _ len => if n ≤ i + len then some ⟨0x31, 0, 7, sec, task, i⟩ else none
      | .skip win => if n ≤ i + win then some ⟨0x31, 0, 7, sec, task, i⟩ else none
      | _ => none

/-- The rows of a chunk that a task can fetch, checked in order: `rows` are those arrived so far, from `lo` on the new ones. -/
def checkRows (sec task bound n lo : Nat) (m : List StepEntry) (held : List HeldRec) (rows : List (BitVec 256)) : Option Rej :=
  let cs := rows.map rowCtl
  let ls := loopsIn cs
  let reach := reachRows cs ls false (walkFuel cs) [0] []
  firstRej ((rows.zipIdx.drop lo).map fun e => if reach.contains e.2 then checkRow sec task bound n cs m held ls e.2 e.1 else none)

/-- A STEPMAP entry states the fetch set it should. -/
def entryRight (cs : List RowCtl) (m : List StepEntry) (row : Option Nat) : Bool :=
  let f := fetchSet cs row
  m.any fun e => e.row == row && e.first == f.foldl min (f.headD 0) && e.last == f.foldl max 0

/-- A RING section whole: fetch does not pass its end, and every step row and the task start have their entries (0x31, 0x33). -/
def checkRing (sec task : Nat) (m : List StepEntry) (rows : List (BitVec 256)) : Option Rej :=
  let cs := rows.map rowCtl
  let reach := reachRows cs (loopsIn cs) false (walkFuel cs) [0] []
  let steps := (cs.zipIdx.filter fun e => e.1 == .step && reach.contains e.2).map fun e => some e.2
  if reach.any fun i => decide (cs.length ≤ i) then some ⟨0x31, 0, 7, sec, task, cs.length - 1⟩
  else ((none :: steps).find? fun r => !entryRight cs m r).map fun (r : Option Nat) => ⟨0x33, 0, 7, sec, task, r.getD 0⟩

/-- The row words of a RING body. -/
def rowsOf (body : List Byte) : List (BitVec 256) :=
  (recsOf 32 body).map fun b => BitVec.ofNat 256 (leNat b)

end Sys2Proof.Machine
end

