-- ==== Sys2Proof/Machine/Loader.lean ====
section
/-! DEFINITION. Loader: job slots and their objects (R238-R240, R248-R250), the instruction-stream frames (R340, R341), the load's checks
in their order (R241), and ring chunks during the run (R243). -/

namespace Sys2Proof.Machine

/-! ### What is known of a job -/

/-- JOB_STATE as read (Table 11.13). -/
def jobCode (b : JobSt) : Nat :=
  match b with
  | .free => 0
  | .receiving => 1
  | .loaded => 2
  | .running => 3
  | .ended => 4
  | .rejected => 5

/-- The latched module record of a job module index (Table 11.10). -/
def modRecord (b : Job) (m : Nat) : Option (List Byte) :=
  (b.latched.find? fun r => fld r.2 0 1 == 1 && fld r.2 4 4 == m).map (·.2)

/-- The DEV of a job module index. -/
def devOf (b : Job) (m : Nat) : Nat :=
  ((modRecord b m).map fun r => fld r 8 2).getD 0

/-- The placed channel of an image channel in a job module. -/
def placedCh (b : Job) (m ch : Nat) : Nat :=
  chMap (((modRecord b m).map fun r => fld r 10 1).getD 0) ch

/-- This module's job module index. -/
def ownModule (b : Job) : Nat :=
  fld (ownRecord b) 4 4

/-- The placement record of a task. -/
def taskPlace (b : Job) (t : Nat) : Option (List Byte) :=
  (b.latched.find? fun r => fld r.2 0 1 == 2 && fld r.2 4 4 == t).map (·.2)

/-- The placed TASK_BASE of a task. -/
def taskBase (b : Job) (t : Nat) : Nat :=
  ((taskPlace b t).map fun r => fld r 8 2).getD 0

/-- The first section of a type, with its index. -/
def secFind (b : Job) (type : Nat) : Option (Nat × Sec) :=
  (b.secs.zipIdx.find? fun e => e.1.type == type).map fun e => (e.2, e.1)

/-- The body of the first section of a type. -/
def bodyOf (b : Job) (type : Nat) : List Byte :=
  match secFind b type with
  | some e => tabGet b.bodies [] e.1
  | none => []

/-- The image's task records. -/
def jobTasks (b : Job) : List TaskRec :=
  tasksOf (bodyOf b 1)

/-- A task record. -/
def taskRec (b : Job) (t : Nat) : TaskRec :=
  (jobTasks b).getD t ⟨0, 0, 0, 0, 1, 0⟩

/-- The image's core sets. -/
def jobSets (b : Job) : List (List Nat) :=
  (setsOf (bodyOf b 2).length (bodyOf b 2)).getD []

/-- The tasks of a section's target (Table 11.2). -/
def targets (b : Job) (e : Sec) : List Nat :=
  if isWhole e.type then []
  else if e.target < 2 ^ 31 then [e.target]
  else (jobSets b).getD (e.target - 2 ^ 31) []

/-- The sections of a type whose target holds a task, with their indices. -/
def secsFor (b : Job) (type t : Nat) : List (Nat × Sec) :=
  (b.secs.zipIdx.filter fun e => e.1.type == type && (targets b e.1).contains t).map fun e => (e.2, e.1)

/-- The body of the one section of a type for a task. -/
def bodyFor (b : Job) (type t : Nat) : List Byte :=
  match (secsFor b type t).head? with
  | some e => tabGet b.bodies [] e.1
  | none => []

/-- A task of this module. -/
def isOwnTask (b : Job) (t : Nat) : Bool :=
  (taskRec b t).module_ == ownModule b

/-- The tasks of this module. -/
def ownTasks (b : Job) : List Nat :=
  (List.range (jobTasks b).length).filter (isOwnTask b)

/-- The placed core of a task of this module, as its channel and its number there. -/
def taskCore (b : Job) (t : Nat) : Nat × Nat :=
  let r := taskRec b t
  (placedCh b r.module_ r.ch, 16 * r.cl + r.core)

/-- The connection table of a task, as the image holds it. -/
def taskConns (b : Job) (t : Nat) : Tab Conn :=
  connsOf (bodyFor b 4 t)

/-- The descriptors of a task, by ring. -/
def taskDescs (b : Job) (t : Nat) : List (Nat × Desc) :=
  (descsOf (bodyFor b 5 t)).filterMap fun e => (descOf e.2).map fun d => (e.1, d)

/-! ### Rejection (R238) -/

/-- The hash store's free places (LDR_HASH_FREE): each accepted image keeps its chunk hashes until its slot is cleared. -/
def hashFree (s : State) : Nat :=
  1048576 - ((s.hub.jobs.filter fun e => e.2.accepted).map fun e => hdrHashes e.2.manifest).sum

/-- A load rejected: what it wrote is cleared, JOB_RESULT and an event report it. -/
def rejectJob (s : State) (j : Nat) (r : Rej) : State :=
  let s := clearJob s j
  let s := dSet s (0x640 + j) 3 (rejBits r)
  hubEvent (updJob s j fun b => { Job.reset with st := .rejected, place := b.place }) 0x0021 j (leBytes 16 (rejBits r))

/-- A check made on a load: the rejection it finds, or what follows. -/
def unlessRej (s : State) (j : Nat) (r : Option Rej) (go : State → State) : State :=
  match r with
  | some r => rejectJob s j r
  | none => go s

/-! ### Sections whole: checks of each (R241) -/

/-- The core and the bound of every task of a target, a descriptor body checked for each. -/
def checkDescFor (b : Job) (sec : Nat) (e : Sec) (body : List Byte) : Option Rej :=
  firstRej ((targets b e).map fun t => checkDesc sec (16 * (taskRec b t).cl + (taskRec b t).core) (taskRec b t).bound body)

/-- The smallest bound of a target (R241). -/
def minBound (b : Job) (e : Sec) : Nat :=
  ((targets b e).map fun t => (taskRec b t).bound).foldl min 512

/-- A small section's body, by its type. -/
def checkSection (b : Job) (sec : Nat) (e : Sec) : Option Rej :=
  let m := b.manifest
  let body := tabGet b.bodies [] sec
  match e.type with
  | 1 => checkTasks (hdrModules m) (hdrTasks m) sec body
  | 2 => checkSets (hdrTasks m) sec body
  | 3 => checkRegs (hdrModules m) (hdrTasks m) sec body
  | 4 => checkConn sec body
  | 5 => checkDescFor b sec e body
  | 6 => checkStepMap sec body
  | 7 => checkHeld sec (minBound b e) body
  | 8 => checkSeeds sec body
  | 9 => checkPatch b.secs (hdrModules m) (hdrTasks m) sec body
  | _ => none

/-! ### Checks across sections -/

/-- A small section has come whole and passed its own checks. -/
def secIn (b : Job) (n : Nat) : Bool :=
  b.secDone.contains n

/-- Every section of a type has come (R241: a check waits for the bytes it needs). -/
def typeIn (b : Job) (type : Nat) : Bool :=
  b.secs.zipIdx.all fun e => e.1.type != type || secIn b e.2

/-- The tasks of a target are known: a task's at once, a set's once SETS has come. -/
def targetIn (b : Job) (e : Sec) : Bool :=
  isWhole e.type || decide (e.target < 2 ^ 31) || typeIn b 2

/-- The sections of a type for a task have come. -/
def forIn (b : Job) (type t : Nat) : Bool :=
  typeIn b 2 && (secsFor b type t).all fun e => secIn b e.1

/-- A task does not lie in the targets it should (Table 11.3). -/
def coverBad (b : Job) (t : Nat) : Bool :=
  let n := fun type => (secsFor b type t).length
  let meet := fun (type scale : Nat) => (secsFor b type t).any fun x => (secsFor b type t).any fun y =>
    decide (x.1 < y.1) && meets (x.2.aux * scale) x.2.length (y.2.aux * scale) y.2.length
  decide (n 0x10 ≠ 1 ∨ n 6 ≠ 1 ∨ 1 < n 4 ∨ 1 < n 5 ∨ 1 < n 7) || meet 0x11 1 || meet 0x12 32

/-- A section names a set that the image does not hold. -/
def setBad (b : Job) (e : Sec) : Bool :=
  !isWhole e.type && decide (2 ^ 31 ≤ e.target) && decide ((jobSets b).length ≤ e.target - 2 ^ 31)

/-- A task whose send ends name a task or queue absent from the image, or do not agree with it (R153): each end judged once its own table
and its peer's have come. -/
def connsBad (b : Job) (t : Nat) : Bool :=
  forIn b 4 t && (taskConns b t).any fun e => e.2.role == 0 && !e.2.peerk &&
    match (jobTasks b).zipIdx.find? fun x => x.1.module_ == e.2.pdev && x.1.ch == e.2.pch && x.1.cl == e.2.pcl && x.1.core == e.2.pcore with
    | none => true
    | some x => forIn b 4 x.2 && !sendAgrees e.2 (taskConns b x.2)

/-- A member ring whose lead does not name it (R141): judged once both descriptor sections have come. -/
def membersBad (b : Job) (t : Nat) : Bool :=
  let r := taskRec b t
  let me := 16 * r.cl + r.core
  forIn b 5 t && (taskDescs b t).any fun e => e.2.kind == 4 &&
    let lead := leadOf me e.2
    match (jobTasks b).zipIdx.find? fun x => x.1.module_ == r.module_ && x.1.ch == r.ch && 16 * x.1.cl + x.1.core == lead with
    | none => true
    | some x => forIn b 5 x.2 && match (taskDescs b x.2).find? fun y => y.1 == e.1 with
      | none => true
      | some y => !memberAgrees me lead e.2 y.2

/-- A placement record whose fields Table 11.10 does not allow. -/
def placeBad (r : List Byte) : Bool :=
  !zeroAt r 1 3 ||
    match fld r 0 1 with
    | 1 => decide (4095 < fld r 8 2) || !zeroAt r 12 20 || decide (1 < fld r 11 1)
    | 2 => decide (511 < fld r 8 2) || !zeroAt r 10 22
    | 3 => decide (3 < fld r 8 2) || !zeroAt r 10 2 || !zeroAt r 28 4
    | _ => true

/-- A position lies in an armed inspection window (R276). -/
def inWindow (k : Channel) (key : Nat) : Bool :=
  k.insps.any fun w => w.pos == key

/-- A task of this module cannot be placed: no record, rows beyond the scratchpad, a core that holds a task or is not fit for one. -/
def taskUnplaced (s : State) (b : Job) (t : Nat) : Bool :=
  let c := taskCore b t
  let k := getCh s c.1
  let key := posKey (c.2 / 16) (posOf k c.2)
  (taskPlace b t).isNone || decide (512 < taskBase b t + (taskRec b t).bound) || decide ((coreOf k c.2).status ≠ .noTask) ||
    decide (posState k (c.2 / 16) (posOf k c.2) ≠ .inUse) || inWindow k key

/-- The placed channels of this module that hold a task of a job. -/
def placedChans (b : Job) : List Nat :=
  ((ownTasks b).map fun t => (taskCore b t).1).dedup.mergeSort fun x y => decide (x ≤ y)

/-- The placement record of a region in a channel. -/
def regionPlace (b : Job) (n ch : Nat) : Option (List Byte) :=
  (b.latched.find? fun r => fld r.2 0 1 == 3 && fld r.2 4 4 == n && fld r.2 8 2 == ch).map (·.2)

/-- The channels of this module whose maps receive regions (R239, R240): those that KIND 3 records name, and those with a task of the job. -/
def regionChans (b : Job) : List Nat :=
  (List.range 4).filter fun ch => (placedChans b).contains ch || b.latched.any fun r => fld r.2 0 1 == 3 && fld r.2 8 2 == ch

/-- A region's placement in a channel is missing where it must stand, or names for tier 0 a page that no scratchpad has (Table 11.10). -/
def regionUnplaced (b : Job) (e : RegRec × Nat) (ch : Nat) : Bool :=
  match regionPlace b e.2 ch with
  | none => (placedChans b).contains ch
  | some p => decide (e.1.tier = 0 ∧ 31 < fld p 16 4)

/-- The placement records by themselves, and one for each module, one of them the own (code 0x41). -/
def checkRecords (b : Job) : Option Rej :=
  let owns := b.latched.filter fun r => fld r.2 0 1 == 1 && bit (fld r.2 11 1) 0
  if b.latched.any (fun r => placeBad r.2) || decide (owns.length ≠ 1) ||
    (List.range (hdrModules b.manifest)).any (fun m => (modRecord b m).isNone) then some (Rej.at_ 0x41 0xFFFF 0) else none

/-- The placement of the tasks of this module (codes 0x41 and 0x42): made when TASKS has come, and again when the load completes. -/
def checkPlacement (s : State) (b : Job) : Option Rej :=
  firstRej [((ownTasks b).find? (taskUnplaced s b)).map fun t => ⟨0x41, 0, 7, 0xFFFF, t, 0⟩,
    if (placedChans b).any fun ch => decide ((getCh s ch).st ≠ .serving) then some (Rej.at_ 0x42 0xFFFF 0) else none]

/-- The checks that need more than one section, each where all that it needs has come (R241). -/
def checkAcross (s : State) (b : Job) : Option Rej :=
  let find := fun code (p : Nat → Bool) => ((List.range (hdrTasks b.manifest)).find? p).map fun t => (⟨code, 0, 7, 0xFFFF, t, 0⟩ : Rej)
  let when_ := fun (ready : Bool) (r : Option Rej) => if ready then r else none
  let tasks := typeIn b 1
  firstRej ([when_ (typeIn b 2) ((b.secs.zipIdx.find? fun e => setBad b e.1).map fun e => Rej.at_ 0x03 e.2 0),
      when_ (b.secs.all (targetIn b)) (find 0x03 (coverBad b))] ++
    (b.secs.zipIdx.map fun e => when_ (tasks && secIn b e.2 && targetIn b e.1 && (e.1.type == 5 || e.1.type == 7)) (checkSection b e.2 e.1)) ++
    [when_ tasks (find 0x50 (connsBad b)), when_ tasks (find 0x60 (membersBad b)), when_ tasks (checkPlacement s b),
     when_ (tasks && typeIn b 3 && (regionChans b).any fun ch => (regsOf (bodyOf b 3)).zipIdx.any fun e => regionUnplaced b e ch)
       (some (Rej.at_ 0x41 0xFFFF 0)),
     when_ (typeIn b 9 && (recsOf 16 (bodyOf b 9)).any fun r => fld r 8 1 == 3 && (taskPlace b (fld r 12 4)).isNone)
       (some (Rej.at_ 0x41 0xFFFF 0))])

/-! ### Placement (R240) -/

/-- The map entry of one page of a region (R240, Table 9.6). -/
def pageEntry (dev ch tier page : Nat) (r : RegRec) : Nat :=
  2 ^ 63 + dev * 2 ^ 51 + ch * 2 ^ 49 + tier * 2 ^ 47 + page * 2 ^ 23 + b2n (bit r.flags 1) * 2 ^ 22 + b2n (bit r.flags 2) * 2 ^ 21 +
    b2n (bit r.flags 3) * 2 ^ 20 + b2n (bit r.flags 5) * 2 ^ 19 + b2n (bit r.flags 4) * 2 ^ 18

/-- The entries of a region record under its placement record: map entry number and value. -/
def regionEntries (b : Job) (r : RegRec) (p : List Byte) : List (Nat × Nat) :=
  let base := if r.tier = 0 then 32 * (16 * (taskRec b r.task).cl + (taskRec b r.task).core) else 0
  let main := (List.range r.npages).map fun i =>
    (fld p 12 4 + i, pageEntry (devOf b r.home) (placedCh b r.home r.hch) r.tier (base + fld p 16 4 + i) r)
  let repl := if bit r.flags 5 then (List.range r.npages).map fun i =>
    (fld p 20 4 + i, pageEntry (devOf b r.rhome) (placedCh b r.rhome r.rhch) r.rtier (fld p 24 4 + i) r) else []
  main ++ repl

/-- A region as Table 9.5 holds it. -/
def regionPlaced (j : Nat) (r : RegRec) (p : List Byte) : Region :=
  { job := j, psz := r.psz, base := r.vaddr / 65536, npages := r.npages, first := fld p 12 4
    rfirst := if bit r.flags 5 then fld p 20 4 else 0, rv := bit r.flags 5 }

/-- One region written into a channel's map; none where R204, R206 or the table refuses it, or where a tier-0 region runs past the last page
of its target's scratchpad, so that no map entry can name the page (code 0x80). -/
def placeRegion (s : State) (j ch : Nat) (b : Job) (r : RegRec) (p : List Byte) : Option State :=
  let k := getCh s ch
  let g := regionPlaced j r p
  let es := regionEntries b r p
  match (List.range 64).find? fun n => (tabFind k.regions n).isNone with
  | none => none
  | some n =>
    let bare := updCh s ch fun k => { k with famMap := k.famMap.filter fun e => !inRegion g e.1 }
    if regionRefused bare ch n g ∨ es.any (fun e => entryRefused s g.psz g.rv e.2) ∨ (r.tier = 0 ∧ 32 < fld p 16 4 + r.npages) then none
    else some (updCh s ch fun k => { k with
      regions := tabSet k.regions n g
      famMap := es.foldl (fun m e => tabSet m e.1 (BitVec.ofNat 64 e.2)) k.famMap })

/-- Every region that a placement record names for a channel, in ascending region record. -/
def placeRegions (j ch : Nat) (b : Job) : List (RegRec × Nat) → State → State × Option Nat
  | [], s => (s, none)
  | e :: l, s =>
    match regionPlace b e.2 ch with
    | none => placeRegions j ch b l s
    | some p => match placeRegion s j ch b e.1 p with
      | none => (s, some e.2)
      | some s => placeRegions j ch b l s

/-- The value of a patch (Table 11.9). -/
def patchValue (b : Job) (kind v : Nat) : Nat :=
  match kind with
  | 1 => devOf b v
  | 2 => placedCh b (bits v 16 12) (bits v 0 2)
  | 3 => taskBase b v
  | _ => ownModule b

/-- Bytes put over others from an offset. -/
def splice (bs : List Byte) (o : Nat) (v : List Byte) : List Byte :=
  bs.take o ++ v ++ bs.drop (o + v.length)

/-- A bulk body as it lands: its chunks in order, patched (R240). -/
def patchedBody (b : Job) (sec : Nat) (e : Sec) : List Byte :=
  let body := (List.range (chunkCount e.length)).flatMap fun i => tabGet b.bulk [] (sec * 2 ^ 40 + i)
  ((recsOf 16 (bodyOf b 9)).filter fun r => fld r 0 4 == sec).foldl (fun body r =>
    splice body (fld r 4 4) (leBytes 4 (patchValue b (fld r 8 1) (fld r 12 4)))) body

/-- Bytes that the bulk sections of a type land for a task, from a scaled AUX. -/
def landBodies (b : Job) (type t scale base : Nat) (m : Mem) : Mem :=
  (secsFor b type t).foldl (fun m e => memWrite m (base + e.2.aux * scale) (patchedBody b e.1 e.2)) m

/-- A ring chunk written into its block (R243): what the block held before is gone. -/
def writeChunk (chunk : Nat) (rows : List (BitVec 256)) (c : Core) : Core :=
  let blk := blockOf c chunk
  let old := c.ring.filter fun e => decide (e.1 / 256 ≠ blk)
  { c with
    ring := rows.zipIdx.foldl (fun t e => tabSet t (256 * blk + e.2) e.1) old
    blocks := tabSet c.blocks blk chunk }

/-- A connection entry with its peer's device and placed channel (R240). -/
def placeConn (b : Job) (e : Conn) : Conn :=
  if e.peerk ∨ e.any then e else { e with pdev := devOf b e.pdev, pch := placedCh b e.pdev e.pch }

/-- The segments that hold the task's rows, ON (R138, R240). -/
def loadSegs (c : Core) : Core :=
  { c with segs := ((List.range 8).filter (segHolds c)).map fun n => (n, (⟨.on, 0, false⟩ : Seg)) }

/-- A core as the load leaves it (R30, R137, R240): it holds for the first launch. -/
def loadCore (b : Job) (j t : Nat) : Core :=
  let r := taskRec b t
  let c : Core := { Core.reset with
    status := .holding, job := j, task := t, base := taskBase b t, bound := r.bound, profile := b.profile, start := r.start, pc := r.start
    toLaunch := some 0, stepMap := stepMapOf (bodyFor b 6 t), held := heldOf (bodyFor b 7 t)
    conns := tabMap (taskConns b t) fun _ e => placeConn b e
    rings := (taskDescs b t).foldl (fun g e => tabSet g e.1 { Ring.reset with desc := some e.2 }) []
    dmem := landBodies b 0x11 t 1 0 [], spad := landBodies b 0x12 t 32 (taskBase b t * 4096) [], pins := [(0, 0)] }
  let c := ecrSet 0x300 (BitVec.ofNat 32 (segMask c)) (loadSegs c)
  let rows := match (secsFor b 0x10 t).head? with
    | some e => tabGet b.rows [] e.1
    | none => []
  let c := ((chunksOf 256 16 rows).zipIdx).foldl (fun c e => writeChunk e.2 e.1 c) c
  let m := ((c.stepMap.zipIdx.find? fun e => e.1.row == none).map (·.2)).getD 0
  { c with curMap := m, snaps := [snapOf c 0 m] }

/-- Every channel of a job, by device (R258). -/
def jobChannels (b : Job) : List (Nat × Nat) :=
  ((jobTasks b).map fun r => (devOf b r.module_, placedCh b r.module_ r.ch)).dedup

/-- The tasks of this module with their placed cores: what a slot holds of them. -/
def placedTasks (b : Job) : List (Nat × Nat) :=
  (ownTasks b).map fun t => (t, 128 * (taskCore b t).1 + (taskCore b t).2)

/-- The placement completed (R240): regions, cores, the job's place in each channel; LOADED and its event. -/
def placeJob (s : State) (j : Nat) : State :=
  let b := getJob s j
  let regs := (regsOf (bodyOf b 3)).zipIdx
  let r := (regionChans b).foldl (fun (r : State × Option Nat) ch => match r.2 with
    | some _ => r
    | none => placeRegions j ch b regs r.1) (s, none)
  match r.2 with
  | some n => rejectJob r.1 j (Rej.at_ 0x80 (((secFind b 3).map (·.1)).getD 0xFFFF) (32 * n))
  | none =>
    let s := (placedChans b).foldl (fun s ch => updJobCh s ch j fun _ => { JobCh.reset with placed := true }) r.1
    let s := (ownTasks b).foldl (fun s t => updCh s (taskCore b t).1 fun k => updCoreOf k (taskCore b t).2 fun _ => loadCore b j t) s
    let r0 := taskRec b 0
    hubEvent (updJob s j fun b => { b with
      st := .loaded
      tasks := placedTasks b
      lead := (devOf b r0.module_, placedCh b r0.module_ r0.ch)
      chans := jobChannels b
      rows := [], bulk := [] }) 0x0020 j []

/-- The last section has been checked (R238, step 6): the placement still holds, and it is completed. -/
def finishLoad (s : State) (j : Nat) : State :=
  unlessRej s j (checkPlacement s (getJob s j)) fun s => placeJob s j

/-! ### Receiving (R238, R340, R341) -/

/-- A bulk section this module needs. -/
def needsSec (b : Job) (e : Sec) : Bool :=
  isBulk e.type && (targets b e).any (isOwnTask b)

/-- Every bulk section this module needs has come. -/
def bulkDone (b : Job) : Bool :=
  b.secs.zipIdx.all fun e => !needsSec b e.1 || (List.range (chunkCount e.1.length)).all fun i => b.chunks.contains (e.2, i)

/-- The small section that comes next. -/
def nextSmall (b : Job) : Option (Nat × Sec) :=
  (b.secs.zipIdx.find? fun e => !isBulk e.1.type && !b.secDone.contains e.2).map fun e => (e.2, e.1)

/-- A section that has come whole is checked and counted, and with it what waited for it (R241); the seed slots stand from then on, and the
tasks placed here are known. -/
def sectionDone (s : State) (j sec : Nat) (e : Sec) : State :=
  let b := getJob s j
  let body := tabGet b.bodies [] sec
  if sm3 body ≠ beBytes 32 e.hash.toNat then rejectJob s j (Rej.at_ 0x04 sec 0)
  else unlessRej s j (if e.type = 5 ∨ e.type = 7 then none else checkSection b sec e) fun s =>
    let s := updJob s j fun b => { b with
      secDone := b.secDone ++ [sec]
      seeds := if e.type = 8 then seedsOf body else b.seeds
      tasks := if e.type = 1 then placedTasks b else b.tasks }
    unlessRej s j (checkAcross s (getJob s j)) id

/-- Sections of no bytes complete by themselves; after the last small section the bulk sections follow. -/
def advanceLoad (j : Nat) : Nat → State → State
  | 0, s => s
  | n + 1, s =>
    let b := getJob s j
    if b.st ≠ .receiving ∨ !b.accepted then s
    else match nextSmall b with
      | some e => if e.2.length = 0 then advanceLoad j n (sectionDone s j e.1 e.2) else s
      | none => if bulkDone b then finishLoad s j else s

/-- A frame for a slot that does not take it (R238). -/
def discardFrame (s : State) (j sec : Nat) : State :=
  hubEvent s 0x0022 j (leBytes 2 sec ++ leBytes 1 (jobCode (getJob s j).st))

/-- The manifest has come whole: the image hash, the sections, and the checks that need no more (R237, R238, R241). -/
def manifestWhole (s : State) (j : Nat) : State :=
  let b := getJob s j
  if hashFree s < hdrHashes b.manifest then rejectJob s j (Rej.at_ 0xA0 0xFFFF 8)
  else
    let s := dSet s (0x640 + j) 4 (leNat (imageHash b.manifest))
    let secs := secsOf b.manifest
    let s := updJob s j fun b => { b with accepted := true, secs := secs }
    unlessRej s j (checkAcross s (getJob s j)) fun s => advanceLoad j (secs.length + 1) s

/-- The header has come: the configuration hash, check 0x22 (R246), and the placement records. -/
def headerWhole (s : State) (j : Nat) : State :=
  let m := (getJob s j).manifest
  let s := dSet s (0x640 + j) 5 (leNat (configHash (fld m 24 1)))
  unlessRej s j (firstRej [checkConfig m, checkRecords (getJob s j)]) fun s => updJob s j fun b => { b with
    hdrOk := true, profile := fld m 24 1, opceil := fld m 26 2, debug := bit (fld m 30 1) 0 }

/-- Bytes of the manifest from a length on: the checks whose last byte came with them, in arrival order (R241). -/
def manifestTake (s : State) (j from_ : Nat) : State :=
  let m := (getJob s j).manifest
  unlessRej s j (arrivedRej (checkHeader m (dGet s 0x600 2 = 1)) from_ m.length) fun s =>
    let s := if !(getJob s j).hdrOk ∧ 256 ≤ m.length then headerWhole s j else s
    if !(getJob s j).hdrOk then s
    else if manifestLen m < m.length then rejectJob s j (Rej.at_ 0x02 0xFFFF from_)
    else unlessRej s j (arrivedRej (checkManifest m (ownerKeys s)) from_ m.length) fun s =>
      if m.length < manifestLen m then s else manifestWhole s j

/-- MANIFEST (R340, R238). -/
def execManifest (j : JobSlot) (off : BitVec 40) (bytes : List Byte) (s : State) : Host.Outcome State Fault Refusal :=
  let j := j.toNat
  let b := getJob s j
  if !portUp s ⟨.ahnec, 0⟩ then .next s
  else if b.st ≠ .receiving then .next (discardFrame s j 0xFFFF)
  else if b.accepted ∨ off.toNat ≠ b.manifest.length then .next (rejectJob s j (Rej.at_ 0x05 0xFFFF off.toNat))
  else .next (manifestTake (updJob s j fun b => { b with manifest := b.manifest ++ bytes }) j b.manifest.length)

/-- SECTION (R340, R238): the small sections in table order, each without gaps. -/
def execSectionBytes (j : JobSlot) (sec : BitVec 16) (off : BitVec 40) (bytes : List Byte) (s : State) : Host.Outcome State Fault Refusal :=
  let j := j.toNat
  let b := getJob s j
  let n := sec.toNat
  if !portUp s ⟨.ahnec, 0⟩ then .next s
  else if b.st ≠ .receiving then .next (discardFrame s j n)
  else match nextSmall b with
    | none => .next (rejectJob s j (Rej.at_ 0x05 n off.toNat))
    | some (m, e) =>
      let have_ := tabGet b.bodies [] n
      if m ≠ n ∨ off.toNat ≠ have_.length ∨ !b.accepted then .next (rejectJob s j (Rej.at_ 0x05 n off.toNat))
      else if e.length < have_.length + bytes.length then .next (rejectJob s j (Rej.at_ 0x02 n off.toNat))
      else
        let s := updJob s j fun b => { b with bodies := tabSet b.bodies n (have_ ++ bytes) }
        if have_.length + bytes.length < e.length then .next s
        else .next (advanceLoad j (b.secs.length + 1) (sectionDone s j n e))

/-- Where a chunk's rejection points: a stream index for a ring, else a byte. -/
def chunkOffset (e : Sec) (num : Nat) : Nat :=
  if e.type = 0x10 then 256 * num else 8192 * num

/-- The new rows of a ring section checked for every step map and held set of its target; with its last chunk, every row, since rows
that come later can make a row reachable, or reachable in a further step. -/
def checkChunk (b : Job) (sec : Nat) (e : Sec) (lo : Nat) : Option Rej :=
  let rows := tabGet b.rows [] sec
  let whole := decide (32 * rows.length = e.length)
  firstRej ((targets b e).map fun t =>
    let m := stepMapOf (bodyFor b 6 t)
    firstRej [checkRows sec t (minBound b e) (e.length / 32) (if whole then 0 else lo) m (heldOf (bodyFor b 7 t)) rows,
      if whole then checkRing sec t m rows else none])

/-- A chunk that arrives before LOADED (R238, step 4 and 5). -/
def takeChunk (s : State) (j sec num : Nat) (mask : BitVec 4) (bytes : List Byte) : State :=
  let b := getJob s j
  match b.secs[sec]? with
  | none => rejectJob s j (Rej.at_ 0x05 sec 0)
  | some e =>
    let rows := tabGet b.rows [] sec
    let bad := mask != 0 || !b.accepted || (nextSmall b).isSome || !needsSec b e || decide (chunkCount e.length ≤ num) ||
      (e.type == 0x10 && decide (num * 256 ≠ rows.length))
    if bad then rejectJob s j (Rej.at_ 0x05 sec (chunkOffset e num))
    else if bytes.length ≠ min 8192 (e.length - 8192 * num) ∨ sm3 bytes ≠ chunkHash b.manifest b.secs sec num then
      rejectJob s j (Rej.at_ 0x04 sec (chunkOffset e num))
    else
      let s := updJob s j fun b => { b with
        chunks := if b.chunks.contains (sec, num) then b.chunks else b.chunks ++ [(sec, num)]
        rows := if e.type = 0x10 then tabSet b.rows sec (rows ++ rowsOf bytes) else b.rows
        bulk := if e.type = 0x10 then b.bulk else tabSet b.bulk (sec * 2 ^ 40 + num) bytes }
      unlessRej s j (if e.type = 0x10 then checkChunk (getJob s j) sec e (256 * num) else none) fun s =>
        if bulkDone (getJob s j) then finishLoad s j else s

/-- The multicast set of a chunk: channel and core of every task it names here (R341). -/
def chunkCores (b : Job) (e : Sec) (mask : BitVec 4) : List (Nat × Nat) :=
  (((targets b e).filter (isOwnTask b)).map (taskCore b)).filter fun c => mask == 0 || mask.getLsbD c.1

/-- The refusal of a ring write (R243). -/
def refuseChunk (s : State) (j sec num cause : Nat) : State :=
  hubEvent s 0x0024 j (leBytes 2 sec ++ zeros 2 ++ leBytes 4 num ++ leBytes 1 cause)

/-- A control-port operation that a core refuses, reported to the hub (R15): the operation by its place in Table 1.4. -/
def ctlRefused (op : Nat) (s : State) (c : Nat × Nat) : State :=
  chEvent s c.1 0x0004 (coreOf (getCh s c.1) c.2).job (leBytes 1 (c.2 / 16) ++ leBytes 1 (c.2 % 16) ++ leBytes 1 op)

/-- A core refuses a chunk of its ring: the block is pinned (R242), or the position is seized (R272, step 3). -/
def chunkPinned (s : State) (num : Nat) (c : Nat × Nat) : Bool :=
  let x := coreOf (getCh s c.1) c.2
  decide (x.pin / 256 + 15 < num) || decide (x.grip = .seized ∨ x.grip = .released)

/-- A chunk that arrives once the job is loaded (R243, R341). -/
def feedChunk (s : State) (j sec num : Nat) (mask : BitVec 4) (bytes : List Byte) : State :=
  let b := getJob s j
  match b.secs[sec]? with
  | none => refuseChunk s j sec num 3
  | some e =>
    let set := chunkCores b e mask
    if e.type ≠ 0x10 ∨ chunkCount e.length ≤ num then refuseChunk s j sec num 3
    else if bytes.length ≠ min 8192 (e.length - 8192 * num) ∨ sm3 bytes ≠ chunkHash b.manifest b.secs sec num then refuseChunk s j sec num 2
    else if set.any (chunkPinned s num) then refuseChunk ((set.filter (chunkPinned s num)).foldl (ctlRefused 2) s) j sec num 4
    else set.foldl (fun s c => updCh s c.1 fun k => updCoreOf k c.2 (writeChunk num (rowsOf bytes))) s

/-- CHUNK (R341, R238, R243). -/
def execChunk (j : JobSlot) (mask : BitVec 4) (sec : BitVec 16) (num : BitVec 40) (bytes : List Byte) (s : State) :
    Host.Outcome State Fault Refusal :=
  let j := j.toNat
  if !portUp s ⟨.ahnec, 0⟩ then .next s
  else match (getJob s j).st with
  | .receiving => .next (takeChunk s j sec.toNat num.toNat mask bytes)
  | .loaded => .next (feedChunk s j sec.toNat num.toNat mask bytes)
  | .running => .next (feedChunk s j sec.toNat num.toNat mask bytes)
  | _ => .next (refuseChunk s j sec.toNat num.toNat 1)

/-! ### Job objects (R239, R249, R250, R227, R238) -/

/-- The objects of a job slot. -/
def jIdx (j : JobSlot) : Nat :=
  0x640 + j.toNat

/-- Placement records written from a record number on; an empty one leaves the store. -/
def placeWrite (sel : Nat) (bytes : List Byte) (place : Tab (List Byte)) : Tab (List Byte) :=
  (recsOf 32 bytes).zipIdx.foldl (fun t e => if allZero e.1 then tabDel t (sel + e.2) else tabSet t (sel + e.2) e.1) place

/-- JOB_PLACE (R239): records from JOB_PLACE_SEL on, while FREE. -/
def execJobPlace (q : Req) (j : JobSlot) (bytes : List Byte) (s : State) : Host.Outcome State Fault Refusal :=
  .next (onWrite s q (jIdx j) 7 fun s =>
    let sel := dGet s (jIdx j) 6
    if bytes.length % 32 ≠ 0 ∨ 4096 < bytes.length then answer s q 0x04 []
    else if (getJob s j.toNat).st ≠ .free ∨ 8192 < sel + bytes.length / 32 then answer s q 0x09 []
    else answer (updJob s j.toNat fun b => { b with place := placeWrite sel bytes b.place }) q 0x00 [])

/-- JOB_OPEN (R238, step 1). -/
def execJobOpen (q : Req) (j : JobSlot) (v : Byte) (s : State) : Host.Outcome State Fault Refusal :=
  .next (onTrue s q (jIdx j) 2 v fun s =>
    if (getJob s j.toNat).st ≠ .free then answer s q 0x09 []
    else answer (updJob s j.toNat fun b => { Job.reset with
      st := .receiving, place := b.place, latched := b.place.filter fun e => fld e.2 0 1 != 0 }) q 0x00 [])

/-- JOB_SEED (R249). -/
def execJobSeed (q : Req) (j : JobSlot) (val : BitVec 64) (s : State) : Host.Outcome State Fault Refusal :=
  .next (onWrite s q (jIdx j) 9 fun s =>
    let n := dGet s (jIdx j) 8
    match tabFind (getJob s j.toNat).seeds n with
    | none => answer s q 0x09 []
    | some x =>
      if x.mode ≠ 2 ∨ (getJob s j.toNat).launched then answer s q 0x09 []
      else answer (updJob s j.toNat fun b => { b with seeds := tabSet b.seeds n { x with value := val, set := true } }) q 0x00 [])

/-- A seed slot of MODE 2 has no value yet (R249). -/
def seedsMissing (b : Job) : Bool :=
  b.seeds.any fun e => e.2.mode == 2 && !e.2.set

/-- A launch refused, with its event (R23, R249). -/
def refuseLaunch (s : State) (q : Req) (j count : Nat) : State :=
  answer (hubEvent s 0x0010 j (leBytes 8 count)) q 0x09 []

/-- A count has passed in a channel of the job (R23). -/
def countPassed (s : State) (j count : Nat) : Bool :=
  (jobHere (getJob s j)).any fun ch => decide (count < (getCh s ch).ft)

/-- JOB_LAUNCH (R23, R249, R250): the count of the next step not yet released. -/
def execJobLaunch (q : Req) (j : JobSlot) (count : BitVec 64) (s : State) : Host.Outcome State Fault Refusal :=
  .next (onWrite s q (jIdx j) 10 fun s =>
    let b := getJob s j.toNat
    if b.st ≠ .loaded ∧ b.st ≠ .running then answer s q 0x09 []
    else if (!b.launched ∧ seedsMissing b) ∨ countPassed s j.toNat count.toNat then refuseLaunch s q j.toNat count.toNat
    else answer (updJob s j.toNat fun b => { b with launch := count.toNat, launched := true }) q 0x00 [])

/-- A barrier's countdown in 1/16 ticks: how long it is the spec leaves open, but that it outlasts what the links take off it, so that every
module starts in time (R227; DESIGN CHOICE: assumption log, 106). -/
def countdown (free : Nat) : Nat :=
  free + 2 ^ 34

/-- The countdown of a barrier on a route (R227, R314): the delay of the link it goes out on is taken off. -/
def barrierTime (s : State) (ch dev dch d : Nat) : Nat :=
  match routePort (getCh s ch) dev dch with
  | some p => d - dGet s (lnkIdx ch p) 6
  | none => d

/-- JOB_BARRIER (R227, R249): the hub's countdown starts here and in every other module; one that runs is not started again. -/
def execJobBarrier (q : Req) (j : JobSlot) (v : Byte) (s : State) : Host.Outcome State Fault Refusal :=
  .next (onTrue s q (jIdx j) 12 v fun s =>
    let b := getJob s j.toNat
    if b.st ≠ .loaded then answer s q 0x09 []
    else if b.barrier.isSome then answer s q 0x00 []
    else if seedsMissing b then refuseLaunch s q j.toNat 0
    else
      let (f, s) := drawFree s
      let d := countdown (freeNat f 0 % 2 ^ 63)
      let ch := (jobHere b).headD 0
      let s := (otherModules s j.toNat).foldl (fun s e =>
        sendCtl s ch 1 e.1 e.2 { stepCtl s ch j.toNat 0 with time := BitVec.ofNat 64 (barrierTime s ch e.1 e.2 d) }) s
      answer (updJob s j.toNat fun b => { b with launched := true, barrier := some (s.hub.time + d / 16) }) q 0x00 [])

/-- The receive queues of a job's cores closed in every channel of the module (R53). -/
def shutJob (s : State) (j : Nat) : State :=
  (jobHere (getJob s j)).foldl (fun s ch => updJobCores s ch j fun _ c => shutQueues c) s

/-- JOB_RELEASE (R238, R261): an ended or rejected slot is cleared, a receiving one abandoned. -/
def execJobRelease (q : Req) (j : JobSlot) (v : Byte) (s : State) : Host.Outcome State Fault Refusal :=
  .next (onTrue s q (jIdx j) 13 v fun s =>
    match (getJob s j.toNat).st with
    | .rejected => answer (freeJob s j.toNat) q 0x00 []
    | .ended => answer (settleRelease (shutJob (updJob s j.toNat fun b => { b with relWait := true }) j.toNat) j.toNat) q 0x00 []
    | .receiving => answer (rejectJob s j.toNat (Rej.at_ 0xA1 0xFFFF 0)) q 0x00 []
    | _ => answer s q 0x09 [])

end Sys2Proof.Machine
end

