-- ==== Sys2Proof/Machine/Recover.lean ====
section
/-! DEFINITION. Recover: ordered revokes, position restore and seizes (R262, R270, R272), inspection windows and test-pattern packages
(R275-R277), and commanded halts (R364). -/

namespace Sys2Proof.Machine

/-! ### Orders of the control node -/

/-- COMMIT of a step has been sent (R258): by the lead in this module; of a lead elsewhere a channel knows it when it has received it
(DESIGN CHOICE: assumption log, 105). -/
def commitSent (s : State) (ch j step : Nat) : Bool :=
  let b := getJob s j
  if b.lead.1 = ownDev s then decide (step < b.leadStep) else decide (step < (jobOf (getCh s ch) j).gotCommit)

/-- The newest step that the module has launched of a job, where it has not cleared (R262). -/
def newestUncleared (s : State) (ch j : Nat) : Option Nat :=
  match (getJob s j).released with
  | 0 => none
  | n + 1 => if commitSent s ch j n then none else some n

/-- CHK_REVOKE_GO (R262, R263): a revoke of the job's newest uncleared step, or none where every step launched has cleared. -/
def execChkRevokeGo (q : Req) (ch : ChId) (v : Byte) (s : State) : Host.Outcome State Fault Refusal :=
  let n := ch.toNat
  .next (onTrue s q (cIdx n 0x701) 2 v fun s =>
    let j := cGet s n 0x701 1
    if 64 ≤ j ∨ !(jobOf (getCh s n) j).placed then answer s q 0x09 []
    else match newestUncleared s n j with
      | none => answer s q 0x00 []
      | some m => answer (revokeStart s n j m true []) q 0x00 [])

/-- Cluster and position of a position byte (Table 12.11). -/
def posByte (v : Nat) : Nat × Nat :=
  (v / 32, v % 32)

/-- The logical core that a position carries. -/
def coreAt (k : Channel) (cl pos : Nat) : Option Nat :=
  ((List.range 16).map fun i => 16 * cl + i).find? fun n =>
    decide (posOf k n = pos) && decide ((coreOf k n).status ≠ .unavailable ∨ posState k cl pos = .unavailable)

/-- CHK_POS_RESTORE (R270): a FAILED position whose last inspection window was clean becomes the spare. -/
def execChkPosRestore (q : Req) (ch : ChId) (v : Byte) (s : State) : Host.Outcome State Fault Refusal :=
  let n := ch.toNat
  .next (onWrite s q (cIdx n 0x703) 1 fun s =>
    let p := posByte v.toNat
    let k := getCh s n
    if 16 < p.2 then answer s q 0x05 []
    else if posState k p.1 p.2 ≠ .failed ∨ !tabGet k.posClean false (posKey p.1 p.2) then answer s q 0x09 []
    else answer (cSet (updCh s n fun k => { k with posSt := tabSet k.posSt (posKey p.1 p.2) .spareFree }) n 0x703 1 v.toNat) q 0x00 [])

/-- CHK_SEIZE_POS (R272): the position is fenced; the seize goes on when its transfers have drained. -/
def execChkSeizePos (q : Req) (ch : ChId) (v : Byte) (s : State) : Host.Outcome State Fault Refusal :=
  let n := ch.toNat
  .next (onWrite s q (cIdx n 0x703) 2 fun s =>
    let p := posByte v.toNat
    let k := getCh s n
    if 16 < p.2 then answer s q 0x05 []
    else if k.seize.isSome then answer s q 0x09 []
    else
      let c := (coreAt k p.1 p.2).filter fun m => (coreOf k m).status != .noTask
      let s := cSet (updCh s n fun k => { k with seize := some ⟨posKey p.1 p.2, c⟩ }) n 0x703 2 v.toNat
      answer (match c with
        | some m => fenceCore s (mkCore n m)
        | none => s) q 0x00 [])

/-- The commanded halts that a port may make (R364): the reason, or the STATUS of the refusal. -/
def haltReason (s : State) (q : Req) (v : Nat) : Except Nat Nat :=
  match q.port with
  | .mgmt => .ok 0xA6
  | .ahnec => if v = 0xA0 ∨ (v = 0xA4 ∧ dGet s 0x600 2 = 1) then .ok v else .error 0x05

/-- CW_HALT_CMD (R364, R52). -/
def execCwHaltCmd (q : Req) (ch : ChId) (v : Byte) (s : State) : Host.Outcome State Fault Refusal :=
  let n := ch.toNat
  .next (onWrite s q (cIdx n 0x600) 11 fun s =>
    match haltReason s q v.toNat with
    | .error e => answer s q e []
    | .ok r =>
      let c := mkCore n (cGet s n 0x600 1)
      match (getCore s c).status with
      | .noTask => answer s q 0x09 []
      | .unavailable => answer s q 0x09 []
      | .ended => answer s q 0x09 []
      | .halted => answer s q 0x00 []
      | _ => answer (haltCommanded s c r) q 0x00 [])

/-! ### Packages (R275) -/

/-- Where the hub keeps a package's TPK_STATE: beside the package, as one byte. -/
def tpkStateKey (slot : Nat) : Nat :=
  8 + slot

/-- The bytes of a package slot. -/
def tpkBytes (s : State) (slot : Nat) : List Byte :=
  tabGet s.hub.tpks [] slot

/-- TPK_STATE of a package slot. -/
def tpkState (s : State) (slot : Nat) : Nat :=
  fld (tabGet s.hub.tpks [] (tpkStateKey slot)) 0 1

/-- TPK_STATE written. -/
def setTpk (s : State) (slot v : Nat) : State :=
  updHub s fun h => { h with tpks := tabSet h.tpks (tpkStateKey slot) (leBytes 1 v) }

/-- A package's COUNT. -/
def tpkCount (b : List Byte) : Nat :=
  fld b 8 4

/-- A pattern record of a package (Table 12.9). -/
def tpkRecord (b : List Byte) (n : Nat) : List Byte :=
  slice b (128 + 8448 * n) 8448

/-- The bytes of a pattern's result, by KIND. -/
def resultLen (kind : Nat) : Nat :=
  if kind = 0 then 4096 else 512

/-- A pattern record with its reserved bytes zero (Table 12.9). -/
def recordOk (r : List Byte) : Bool :=
  let kind := fld r 7 1
  decide (kind ≤ 2) && zeroAt r 6 1 && zeroAt r 8 56 && zeroAt r 225 31 &&
    (kind != 2 || (zeroAt r 64 161 && zeroAt r 1280 3072)) && zeroAt r (4352 + resultLen kind) (4096 - resultLen kind)

/-- A package passes every check of R275. -/
def packageOk (s : State) (b : List Byte) : Bool :=
  let n := tpkCount b
  let recs := b.drop 128
  let keys := ownerKeys s ++ [beBytes 64 Config.testKey.toNat]
  decide (slice b 0 4 = [0x56, 0x4B, 0x54, 0x31]) && decide (fld b 4 2 = 1) && decide (fld b 6 2 = 0) && decide (1 ≤ n ∧ n ≤ 1985) &&
    decide (fld b 12 1 = 1) && allZero (slice b 13 19) && decide (b.length = 128 + 8448 * n) &&
    ((List.range n).all fun i => recordOk (tpkRecord b i)) &&
    keys.any fun k => keyHash k == slice b 32 32 && sm2Verify k (sm3 (b.take 32 ++ recs)) (slice b 64 64)

/-- TPK_VERIFY (R275). -/
def execTpkVerify (q : Req) (v : Byte) (s : State) : Host.Outcome State Fault Refusal :=
  .next (onTrue s q 0x510 4 v fun s =>
    let slot := dGet s 0x510 1
    answer (setTpk s slot (if packageOk s (tpkBytes s slot) then 2 else 3)) q 0x00 [])

/-! ### Inspection windows (R276, R277) -/

/-- A position holds a task: its logical core's, as long as that is loaded (R276). -/
def holdsTask (k : Channel) (cl pos : Nat) : Bool :=
  (coreAt k cl pos).any fun m => (coreOf k m).status != .noTask && (coreOf k m).job != 0xFFFF

/-- CHK_INSP_ARM (R276): refused for a position that holds a task or is in another window, and for a window that ends before it starts. -/
def execChkInspArm (q : Req) (ch : ChId) (v : Byte) (s : State) : Host.Outcome State Fault Refusal :=
  let n := ch.toNat
  .next (onTrue s q (cIdx n 0x705) 5 v fun s =>
    let p := posByte (cGet s n 0x705 1)
    let key := posKey p.1 p.2
    let k := getCh s n
    let start := cGet s n 0x705 2
    let stop := cGet s n 0x705 3
    let pkg := cGet s n 0x705 4
    if 16 < p.2 ∨ holdsTask k p.1 p.2 ∨ k.insps.any (fun w => w.pos == key) ∨ stop ≤ start then answer s q 0x09 []
    else answer (updCh s n fun k => { k with insps := k.insps ++
      [⟨key, posState k p.1 p.2, start, stop, pkg, false, tabGet k.inspNext 0 (8 * key + pkg), 0, 0, 0, none⟩] }) q 0x00 [])

/-- The position of a key. -/
def keyPos (key : Nat) : Nat × Nat :=
  (key / 17, key % 17)

/-- INSPECTION_WINDOW_START: the windows whose time has come open. -/
def execInspectionWindowStart (ch : ChId) (s : State) : Host.Outcome State Fault Refusal :=
  let n := ch.toNat
  .next (updCh s n fun k =>
    let due : Insp → Bool := fun w => !w.open_ && decide (w.start ≤ k.ft)
    { k with
      posSt := (k.insps.filter due).foldl (fun t w => tabSet t w.pos .inspecting) k.posSt
      insps := k.insps.map fun w => if due w then { w with open_ := true, began := k.ft } else w })

/-- The signature of a failed pattern (R274, R277): KIND 6, no job; the test ring's address is left open. -/
def patternSig (s : State) (ch : Nat) (w : Insp) (count free : Nat) (r : List Byte) : List Byte :=
  let k := getCh s ch
  let p := keyPos w.pos
  let kind := fld r 7 1
  let ops := if kind = 2 then slice r 256 1024 else slice r 256 4096
  let word := fld r 0 6
  let scales := if kind = 2 then 0 else fld r 224 1 + bits word 12 2 * 2 ^ 8
  leBytes 8 k.ft ++ leBytes 8 0 ++ leBytes 2 0xFFFF ++ leBytes 1 ch ++ leBytes 1 p.1 ++ leBytes 1 (((coreAt k p.1 p.2).map (· % 16)).getD 0) ++
    leBytes 1 p.2 ++ [6] ++ leBytes 1 count ++ leBytes 2 (free % 4096) ++ leBytes 1 (if kind = 2 then 4 else 3) ++ [1] ++ leBytes 2 k.mhz ++
    zeros 2 ++ leBytes 8 word ++ zeros 48 ++ leBytes 4 scales ++ zeros 4 ++ sm3 ops ++ (if kind = 2 then zeros 32 else sm3 (slice r 64 128)) ++
    serialBytes ++ zeros 16 ++ beBytes 32 k.prevSig.toNat ++ zeros 32

/-- A position that fails a pattern while it holds a task is named for a shunt at once (R268): in the revoke its job stands in, else in one
of the job's newest uncleared step. -/
def patternNames (s : State) (ch cl pos : Nat) : State :=
  if !holdsTask (getCh s ch) cl pos then s
  else match coreAt (getCh s ch) cl pos with
    | none => s
    | some n =>
      let j := (coreOf (getCh s ch) n).job
      match (jobOf (getCh s ch) j).revoke with
      | some _ => updJobCh s ch j fun v => { v with revoke := v.revoke.map fun r => { r with shunts := (r.shunts ++ [n]).dedup } }
      | none => match newestUncleared s ch j with
        | none => s
        | some m => revokeStart s ch j m false [n]

/-- A failed pattern: its signature, counters, record and event; the position's failure (R277, R268). -/
def patternFailed (s : State) (ch : Nat) (w : Insp) (r : List Byte) : State :=
  let k := getCh s ch
  let p := keyPos w.pos
  let twice := match tabFind k.posFail w.pos with
    | some t => decide (k.ft - t ≤ cGet s ch 0x700 7)
    | none => false
  let count := if twice then 2 else 1
  let (f, s) := drawFree s
  let b := patternSig s ch w count (freeNat f 0) r
  let s := updCh s ch fun k => { k with
    fsigs := (⟨b, if fld r 7 1 = 2 then slice r 256 1024 else slice r 256 4096⟩ :: k.fsigs).take 64
    prevSig := sm3N b, posFail := tabSet k.posFail w.pos k.ft }
  let s := dSat (dSat s (cIdx ch 0x704) 4 1) 0x0500 3 1
  let s := chEvent s ch 0x0050 0xFFFF (leBytes 8 0 ++ [6] ++ leBytes 1 count ++ leBytes 1 p.1 ++ leBytes 1 p.2)
  patternNames (jnlHand s ⟨3, ch, 0, 0xFFFF, (getCh s ch).ft, b, none⟩) ch p.1 p.2

/-- A window's next pattern can end before it closes: 200 cycles from when the one before it ended (R276). -/
def patternFits (k : Channel) (w : Insp) : Bool :=
  decide ((w.began + 200 * 1000 / max 1 k.mhz) < w.stop)

/-- PATTERN_RESULT (R276): the result of the open window's next pattern, compared bit for bit. -/
def execPatternResult (ch : ChId) (bytes : List Byte) (s : State) : Host.Outcome State Fault Refusal :=
  let n := ch.toNat
  match (getCh s n).insps.find? fun w => w.open_ && patternFits (getCh s n) w && tpkState s w.pkg == 2 && decide (w.next < tpkCount (tpkBytes s w.pkg)) with
  | none => .next s
  | some w =>
    let r := tpkRecord (tpkBytes s w.pkg) w.next
    let ok := bytes == slice r 4352 (resultLen (fld r 7 1))
    let s := if ok then s else patternFailed s n w r
    let w' := { w with next := w.next + 1, began := (getCh s n).ft, run := w.run + 1, failed := w.failed + (if ok then 0 else 1)
                       firstBad := if ok then w.firstBad else some (w.firstBad.getD w.next) }
    .next (updCh s n fun k => { k with insps := k.insps.map fun x => if x = w then w' else x })

/-- A window closed (R277): its result, its position's state, and where the next one goes on; a position that a shunt has taken meanwhile
stays in use (R269). -/
def windowClose (ch : Nat) (s : State) (w : Insp) : State :=
  let count := tpkCount (tpkBytes s w.pkg)
  let bad := decide (w.failed ≠ 0) && decide (w.was ≠ .inUse)
  updCh s ch fun k => { k with
    insps := k.insps.erase w
    inspNext := tabSet k.inspNext (8 * w.pos + w.pkg) (if count ≤ w.next then 0 else w.next)
    posSt := if posState k (keyPos w.pos).1 (keyPos w.pos).2 = .inspecting then tabSet k.posSt w.pos (if bad then .failed else w.was) else k.posSt
    posClean := tabSet k.posClean w.pos (decide (w.run = count) && decide (w.failed = 0) && decide (count ≠ 0))
    inspRes := leBytes 4 w.run ++ leBytes 4 w.failed ++ leBytes 4 (w.firstBad.getD 0xFFFFFFFF) ++ leBytes 4 k.ft }

/-- INSPECTION_WINDOW_CLOSE (R277). -/
def execInspectionWindowClose (ch : ChId) (s : State) : Host.Outcome State Fault Refusal :=
  let n := ch.toNat
  let k := getCh s n
  .next ((k.insps.filter fun w => w.open_ && decide (w.stop ≤ k.ft)).foldl (windowClose n) s)

end Sys2Proof.Machine
end

