-- ==== Sys2Proof/Machine/Power.lean ====
section
/-! DEFINITION. Power: channel transitions (R18, R363, R389-R392, Table 18.3), module states and hub reset (R19, R386-R388), loss of
the inputs (R387), the readings and the throttle (R361, R393, R394, R409). -/

namespace Sys2Proof.Machine

/-! ### Stopping jobs (R18) -/

/-- The live cores of a job in a channel halted at once: 0xA0 in the channel that leaves service, 0xA1 elsewhere. -/
def stopCores (gone j : Nat) (s : State) (ch : Nat) : State :=
  let s := updJobCh s ch j fun v => { v with revoke := none }
  (jobCores (getCh s ch) j).foldl (fun s n =>
    if coreLive (coreOf (getCh s ch) n) then haltAtOnce s (mkCore ch n) (if ch = gone then 0xA0 else 0xA1) else s) s

/-- A job stopped on all its channels because one left service (R18, R238): an event, the halts, ENDED. -/
def stopJob (ch : Nat) (s : State) (j : Nat) : State :=
  let s := hubEvent (updJob s j fun b => { b with stopped := some 2 }) 0x0003 j (leBytes 1 ch)
  let s := (jobHere (getJob s j)).foldl (stopCores ch j) s
  if (getJob s j).st = .ended then s else endJob s j

/-- The live jobs that a channel carries. -/
def jobsIn (s : State) (ch : Nat) : List Nat :=
  (s.hub.jobs.filter fun e => jobLive e.2 && (jobChans e.2).contains ch).map (·.1)

/-- Every job of a channel stopped. -/
def stopJobs (s : State) (ch : Nat) : State :=
  (jobsIn s ch).foldl (stopJob ch) s

/-! ### Module state (R388) -/

/-- MOD_SERVING: a bit for each Serving channel (Table 16.6). -/
def servingMask (s : State) : Nat :=
  ((List.range 4).map fun n => if (getCh s n).st = .serving then 2 ^ n else 0).sum

/-- The module is Serving while a channel is, else Ready; MOD_SINCE notes the change (Table 18.1). -/
def settleModule (s : State) : State :=
  let st := if servingMask s = 0 then ModSt.ready else ModSt.serving
  if !(decide (s.hub.st = .ready ∨ s.hub.st = .serving)) ∨ s.hub.st = st then s
  else dSet (updHub s fun h => { h with st := st }) 0x0200 4 (hubTime s)

/-- CH_STATE as read (Table 16.8). -/
def chCode (st : ChState) : Nat :=
  match st with
  | .isolated => 0
  | .resetting => 1
  | .reloading => 2
  | .serving => 3

/-- A channel enters a state: CH_STATE_SINCE, the event, the module's state (R389, R363). -/
def chEnter (s : State) (ch : Nat) (st : ChState) : State :=
  let s := cSet (updCh s ch fun k => { k with st := st }) ch 0x000 7 (getCh s ch).ft
  settleModule (chEvent s ch 0x0005 0xFFFF (leBytes 1 (chCode st)))

/-! ### Ports in a transition (R391, R392, Table 18.3) -/

/-- The drawbar port of another channel towards this one is seen DOWN there (R391). -/
def peerDown (ch : Nat) (s : State) (n : Nat) : State :=
  if n ≠ ch ∧ (getPort (getCh s n) (4 + ch)).st = .up then portFail s n (4 + ch) .down else s

/-- A port goes dark: SHUTDOWN from every state but DISABLED and SHUTDOWN. -/
def portDark (ch : Nat) (s : State) (p : Nat) : State :=
  if p = 4 + ch ∨ (getPort (getCh s ch) p).st = .disabled ∨ (getPort (getCh s ch) p).st = .shutdown then s
  else portEnter s ch p .shutdown

/-- Every port of a channel goes dark. -/
def portsDark (s : State) (ch : Nat) : State :=
  (List.range 4).foldl (peerDown ch) ((List.range 8).foldl (portDark ch) s)

/-- A port that LNK_ENABLE enables starts towards training. -/
def portLight (ch : Nat) (s : State) (p : Nat) : State :=
  if p = 4 + ch ∨ dGet s (lnkIdx ch p) 1 ≠ 1 then s
  else match (getPort (getCh s ch) p).st with
    | .disabled => portEnter s ch p .down
    | .shutdown => portEnter s ch p .restarting
    | .up => portFail s ch p .down
    | _ => s

/-- The ports of a channel start to train. -/
def portsLight (s : State) (ch : Nat) : State :=
  (List.range 4).foldl (peerDown ch) ((List.range 8).foldl (portLight ch) s)

/-- The two ends of a drawbar between Serving channels come UP together once both are DOWN: alignment alone trains them (R320). -/
def drawbarAlign (s : State) (e : Nat × Nat) : State :=
  let a := getCh s e.1
  let b := getCh s e.2
  if a.st = .serving ∧ b.st = .serving ∧ (getPort a (4 + e.2)).st = .down ∧ (getPort b (4 + e.1)).st = .down then
    let up := fun (s : State) ch p =>
      ftSelect (portEnter (freshPort s ch p) ch p .up) ch
    up (up s e.1 (4 + e.2)) e.2 (4 + e.1)
  else s

/-- Every drawbar whose ends are ready comes UP. -/
def drawbarsUp (s : State) : State :=
  [(0, 1), (0, 2), (0, 3), (1, 2), (1, 3), (2, 3)].foldl drawbarAlign s

/-! ### The throttle's gap (R233, R393) -/

/-- The gap the triggers call for: the smaller of the power gap and the thermal 8; 0 for none. -/
def wantedGap (t : Throttle) : Nat :=
  if t.gapThm then (if t.gapPow = 0 then 8 else min 8 t.gapPow) else t.gapPow

/-- The gap set in a Serving channel, and none in another (R398). -/
def gapSet (s : State) (ch : Nat) : State :=
  cSet s ch 0x100 9 (if (getCh s ch).st = .serving then wantedGap s.hub.thr else 0)

/-! ### Channel transitions (Table 18.3) -/

/-- A transition of the channel runs (R363). -/
def inTransition (k : Channel) : Bool :=
  decide (k.req ≠ 0 ∨ k.st = .resetting ∨ k.st = .reloading)

/-- Table 18.3 lists the request for the channel's present state. -/
def requestAllowed (k : Channel) (v : Nat) : Bool :=
  match v with
  | 1 => decide (k.st = .serving)
  | 2 => decide (k.st = .serving ∨ k.st = .isolated)
  | 3 => true
  | 4 => decide (k.st = .isolated)
  | _ => false

/-- What is in flight in a channel ends with its service: nothing of a stopped job lands (R150, R18). -/
def dropFlight (k : Channel) : Channel :=
  { k with
    msgFly := [], remotes := [], srels := [], syncFly := [], waits := [], frames := [], reqs := [], staged := [], seize := none
    brake := { Brake.reset with gapCnt := 0 } }

/-- A core position powered down and up again: no task, and zero throughout; a logical core that is UNAVAILABLE stays so (R271, R391). -/
def powerCore (c : Core) : Core :=
  { Core.reset with status := if c.status = .unavailable then .unavailable else .noTask }

/-- Every core position of a channel powered down. -/
def powerCores (k : Channel) : Channel :=
  { k with cores := tabMap k.cores fun _ c => powerCore c, insps := [] }

/-- Records that no longer fit the journal buffer once a channel's region is gone are discarded, the newest first, and a GAP with
cause 1 will record them (R291). -/
def bufShrink : Nat → State → State
  | 0, s => s
  | n + 1, s =>
    if s.hub.jnl.bufUsed ≤ bufCap s then s
    else match s.hub.jnl.buffer.getLast? with
      | none => s
      | some r =>
        let s := updJnl s fun j => { j with buffer := j.buffer.dropLast, bufUsed := j.bufUsed - r.size, bufAt := j.bufAt - r.size }
        bufShrink n (jnlDiscard s r 1)

/-- The data messages and COUPLE markers of other channels on their way to the stores of a channel, each with its slot. -/
def inbound (s : State) (ch : Nat) : List (Nat × Msg) :=
  let k := getCh s ch
  (((k.pktIn.filter fun p => p.kind == 0).map fun p => (p.pkt.slot.toNat, msgOf p.pkt.body)) ++
    k.msgFly.map fun f => (slotNumber s ch (some (inCh (addrCore f.msg.dst))), f.msg)).filter fun m =>
      decide (m.2.type ≤ 1) && !(addrHere s m.2.src && decide (chOf (addrCore m.2.src) = ch))

/-- The channel that refuses a message which no longer reaches `ch`: its sender's own; for a sender in another module, a Serving channel
beside it (R18, R323). -/
def refuserOf (s : State) (ch : Nat) (m : Msg) : Nat :=
  if addrHere s m.src then chOf (addrCore m.src)
  else (([0, 1, 2, 3].filter fun n => n != ch && decide ((getCh s n).st = .serving)).head?).getD ch

/-- A channel leaves service: what other channels have sent it, the flits on its drawbars first, is refused CLOSED (R18, R323; DESIGN CHOICE:
assumption log, 109). -/
def refuseInbound (s : State) (ch : Nat) : State :=
  let s := [4, 5, 6, 7].foldl (fun s p => (getPort (getCh s ch) p).inFly.foldl (fun s f => flitReceive s ch p f.2)
    (updPort s ch p fun lp => { lp with inFly := [] })) s
  let ms := inbound s ch
  let s := updCh s ch fun k => { k with
    pktIn := k.pktIn.filter fun p => p.kind != 0
    msgFly := k.msgFly.filter fun f => 1 < f.msg.type || (addrHere s f.msg.src && decide (chOf (addrCore f.msg.src) = ch)) }
  ms.foldl (fun s m => refuseUnrouted s (refuserOf s ch m.2) m.1 m.2) s

/-- A transition starts (Table 18.3). -/
def startTransition (s : State) (ch v : Nat) : State :=
  let s := if (getCh s ch).st = .serving ∧ v ≠ 4 then refuseInbound (stopJobs s ch) ch else s
  let s := updCh s ch fun k => { k with req := v, transAt := s.hub.time }
  match v with
  | 1 => portsDark s ch
  | 2 => chEnter (portsLight (updCh s ch fun k => { dropFlight (powerCores k) with selfRef := true }) ch) ch .reloading
  | 3 =>
    let s := chEnter (portsDark s ch) ch .resetting
    bufShrink (s.hub.jnl.buffer.length + 1) s
  | _ => portsLight s ch

/-- The source is lost as the ports go dark: holdover (R225, R391). -/
def holdOver (s : State) (ch : Nat) : State :=
  if (getCh s ch).source = none then s
  else
    let s := cSet (updCh s ch fun k => { k with source := none, slew := 0, ftLocks := 0 }) ch 0x103 6 (getCh s ch).ft
    ftEnter s ch 3 (BitVec.ofNat 32 (cGet s ch 0x103 4)).toInt

/-- Isolate, steps 2 to 6: Isolated. -/
def toIsolated (s : State) (ch : Nat) : State :=
  let s := updCh (stopJobs s ch) ch fun k => { dropFlight (powerCores k) with selfRef := true, req := 0 }
  gapSet (chEnter (holdOver s ch) ch .isolated) ch

/-- A channel as its reset leaves it: Fabric Time and the CXL device's contents go on, all else is at its default, GDDR7 zero (R196). -/
def resetChannel (k : Channel) : Channel :=
  { Channel.reset with ft := k.ft, phase := k.phase, cxl := k.cxl, selfRef := true, st := .resetting, heldReq := k.heldReq }

/-- The reset's end: objects at their defaults, CH_RESETS counted, CXL coming up unless CXL_ENABLE is
false, then Isolated (Table 18.3, R202, R355). -/
def toReset (s : State) (ch : Nat) : State :=
  let n := cGet s ch 0x000 6
  let cxl := cGet s ch 0x201 6
  let s := dClear (updCh s ch resetChannel) (cIdx ch 0) (cIdx ch 0x1000)
  let s := cSet (cSet s ch 0x000 6 (min (n + 1) 0xFFFFFFFF)) ch 0x201 1 cxl
  chEnter s ch .isolated

/-- Service begins (Table 18.3): the ports train, and a throttle gap still due is applied (R398). -/
def toServing (s : State) (ch : Nat) : State :=
  let s := chEnter (updCh s ch fun k => { k with req := 0, selfRef := false }) ch .serving
  gapSet (drawbarsUp s) ch

/-- A held request begins when its turn comes, if the state reached allows it (R363). -/
def takeHeld (s : State) (ch : Nat) : State :=
  let k := getCh s ch
  let v := k.heldReq
  if v = 0 ∨ inTransition k then s
  else
    let s := updCh s ch fun k => { k with heldReq := 0 }
    if requestAllowed k v then startTransition s ch v else s

/-- The transition that runs completes. -/
def endTransition (s : State) (ch : Nat) : State :=
  match (getCh s ch).st, (getCh s ch).req with
  | .resetting, _ => toReset s ch
  | .reloading, _ => toServing s ch
  | .serving, 1 => toIsolated s ch
  | .isolated, 4 => toServing s ch
  | _, _ => s

/-- CH_TRANSITION_COMPLETE (R389, R363). -/
def execChTransitionComplete (ch : ChId) (s : State) : Host.Outcome State Fault Refusal :=
  if !(decide (s.hub.st = .ready ∨ s.hub.st = .serving)) then .next s
  else .next (takeHeld (endTransition s ch.toNat) ch.toNat)

/-- A write of CH_REQUEST (R363, R389): started, held behind the one in progress, or refused. -/
def chRequest (s : State) (q : Req) (ch v : Nat) : State :=
  onWrite s q (cIdx ch 0x000) 3 fun s =>
    let k := getCh s ch
    if v < 1 ∨ 4 < v then answer s q 0x05 []
    else if inTransition k then answer (updCh s ch fun k => { k with heldReq := v }) q 0x00 []
    else if requestAllowed k v then answer (startTransition s ch v) q 0x00 []
    else answer s q 0x09 []

/-- CH_ISOLATE: CH_REQUEST 1. -/
def execChIsolate (q : Req) (ch : ChId) (s : State) : Host.Outcome State Fault Refusal :=
  .next (chRequest s q ch.toNat 1)

/-- CH_RELOAD: CH_REQUEST 2. -/
def execChReload (q : Req) (ch : ChId) (s : State) : Host.Outcome State Fault Refusal :=
  .next (chRequest s q ch.toNat 2)

/-- CH_RESET: CH_REQUEST 3. -/
def execChReset (q : Req) (ch : ChId) (s : State) : Host.Outcome State Fault Refusal :=
  .next (chRequest s q ch.toNat 3)

/-- CH_SERVE: CH_REQUEST 4. -/
def execChServe (q : Req) (ch : ChId) (s : State) : Host.Outcome State Fault Refusal :=
  .next (chRequest s q ch.toNat 4)

/-! ### Hub reset and power (R19, R355, R387, R388) -/

/-- The objects that the standby block keeps while the hub is off (R373, Table 16.11). -/
def standbyKeeps (key : Nat) : Bool :=
  let i := key / 256
  decide (key = dk 0x0100 1) || decide (0x0120 ≤ i ∧ i ≤ 0x012F) || decide (0x0200 ≤ i ∧ i ≤ 0x0204) || decide (0x0300 ≤ i ∧ i ≤ 0x03FF) ||
    decide (i = 0x0500)

/-- The management port of a hub that resets: its addresses and lengths stay, the program is gone (R375). -/
def mgmtKept (m : Mgmt) : Mgmt :=
  { m with prog := [], progLen := 0 }

/-- A channel that powers up or stops for a hub reset enters Resetting. -/
def chPowered (old : Channel) (time : Nat) : Channel :=
  { Channel.reset with ft := old.ft, phase := old.phase, cxl := old.cxl, transAt := time }

/-- Each channel's entry into Resetting is reported. -/
def chRestart (s : State) (ch : Nat) : State :=
  chEnter (updCh s ch fun k => chPowered k s.hub.time) ch .resetting

/-- A hub reset (R355, R19, Table 18.2): every object at its default, a new boot nonce, the ROM program, every channel Resetting, the
journal in recovery (R288), cartridges identified again, the configuration hashes computed (R360). -/
def hubReset (s : State) (cause : Nat) : State :=
  let h := s.hub
  let full := [0, 1].filter fun b => decide ((getBay s b).st ≠ .empty)
  let (n, s) := drawFree s
  let s := { s with
    dict := []
    hub := { Hub.reset with
      st := .ready, time := h.time, boardPos := h.boardPos, nonce := Config.entropy n, mgmt := mgmtKept h.mgmt
      jnl := { Journal.reset with recovering := decide (full ≠ []) } } }
  let s := dSet (dSet s 0x0500 1 cause) 0x0000 8 (leNat (configHash 1))
  let s := if Config.isB1 then dSet s 0x0000 9 (leNat (configHash 2)) else s
  full.foldl bayIdentify ((List.range 4).foldl chRestart s)

/-- A channel without power: only what its CXL device holds stays, which the module never zeroes (R196; DESIGN CHOICE: assumption log, 109). -/
def unpowered (k : Channel) : Channel :=
  { Channel.reset with cxl := k.cxl }

/-- The hub and the main side lose power (R373): Standby, with what the standby block keeps; `cause` is that of the next hub reset. -/
def enterStandby (s : State) (cause : Nat) : State :=
  let h := s.hub
  let t := hubTime s
  let bays := tabMap h.bays fun _ b => { Bay.reset with st := b.st }
  let s := { s with
    dict := s.dict.filter fun e => standbyKeeps e.1
    ch := tabMap s.ch fun _ k => unpowered k
    hub := { Hub.reset with
      cause := cause, time := h.time, boardPos := h.boardPos, nonce := h.nonce, rwsCount := h.rwsCount, mgmt := mgmtKept h.mgmt
      bays := bays, energy := h.energy } }
  dSet (dSet (dSet (dSet s 0x0200 4 t) 0x0121 1 0) 0x0121 5 0) 0x0204 1 0

/-- An orderly way to Standby begins (Table 18.1): the journal is sealed (R286), every channel isolates, one in a transition after it. -/
def standbyStart (s : State) : State :=
  let s := jnlSealed (jnlSeal (updHub s fun h => { h with modReq := 1, transAt := h.time }))
  (List.range 4).foldl (fun s ch =>
    if inTransition (getCh s ch) then updCh s ch fun k => { k with heldReq := 1 }
    else if (getCh s ch).st = .serving then startTransition s ch 1 else s) s

/-- MOD_STANDBY_REQUEST: MOD_REQUEST 1 (R388). -/
def execModStandbyRequest (q : Req) (s : State) : Host.Outcome State Fault Refusal :=
  .next (onWrite s q 0x0200 2 fun s =>
    if s.hub.modReq ≠ 0 ∨ s.hub.st = .standby then answer s q 0x09 [] else answer (standbyStart s) q 0x00 [])

/-- MOD_READY_REQUEST: MOD_REQUEST 2 (R386, R388): refused while the main input lies outside 40,000 to 60,000 mV. -/
def execModReadyRequest (q : Req) (s : State) : Host.Outcome State Fault Refusal :=
  .next (onWrite s q 0x0200 2 fun s =>
    let v := dGet s 0x0201 1
    if s.hub.modReq ≠ 0 ∨ s.hub.st ≠ .standby ∨ v < 40000 ∨ 60000 < v then answer s q 0x09 []
    else answer (updHub s fun h => { h with modReq := 2, transAt := h.time }) q 0x00 [])

/-- MOD_TRANSITION_COMPLETE (R388): Standby to Ready, or Ready or Serving to Standby. -/
def execModTransitionComplete (s : State) : Host.Outcome State Fault Refusal :=
  match s.hub.modReq, s.hub.st with
  | 2, .standby => .next (dSet (hubReset s s.hub.cause) 0x0200 4 0)
  | 1, .ready => .next (enterStandby s 2)
  | 1, .serving => .next (enterStandby s 2)
  | _, _ => .next s

/-- MOD_HUB_RESET (R19, R388): the answer leaves before the reset. -/
def execModHubReset (q : Req) (v : Byte) (s : State) : Host.Outcome State Fault Refusal :=
  .next (onTrue s q 0x0200 3 v fun s =>
    if s.hub.st = .standby then answer s q 0x09 [] else hubReset (answer s q 0x00 []) 1)

/-- AUX_POWER_UP (R388, R370): Off to Standby; the position contacts are read, the boot nonce is drawn. -/
def execAuxPowerUp (pos : BitVec 2) (s : State) : Host.Outcome State Fault Refusal :=
  if s.hub.st ≠ .off then .next s
  else
    let (n, t) := drawFree s
    .next { t with
      dict := []
      ch := tabMap s.ch fun _ k => unpowered k
      hub := { Hub.reset with time := s.hub.time, boardPos := pos.toNat, nonce := Config.entropy n, bays := s.hub.bays } }

/-- AUX_POWER_LOSS (R387): Off from any state; nothing is kept but what is plugged in. -/
def execAuxPowerLoss (s : State) : Host.Outcome State Fault Refusal :=
  .next { s with
    dict := []
    ch := tabMap s.ch fun _ k => unpowered k
    hub := { Hub.reset with
      st := .off, time := s.hub.time, boardPos := s.hub.boardPos
      bays := tabMap s.hub.bays fun _ b => { Bay.reset with st := b.st } } }

/-- MAIN_INPUT_LOSS (R387): Standby at once; a Ready request under way ends. -/
def execMainInputLoss (s : State) : Host.Outcome State Fault Refusal :=
  match s.hub.st with
  | .ready => .next (enterStandby s 3)
  | .serving => .next (enterStandby s 3)
  | .standby => .next (updHub s fun h => { h with modReq := 0 })
  | .off => .next s

/-! ### Readings (R361, Table 16.6) -/

/-- A signed reading as its 32 bits. -/
def i32 (v : Int) : Nat :=
  (BitVec.ofInt 32 v).toNat

/-- The readings of one millisecond written to their objects. -/
def setReadings (s : State) (r : Readings) : State :=
  let s := dSet (dSet (dSet (dSet (dSet s 0x0201 1 r.vinMain) 0x0201 2 r.iinMain) 0x0201 3 r.pMain) 0x0201 4 r.vinAux) 0x0201 5 r.pAux
  let s := updHub s fun h => { h with energy := h.energy + r.pMain }
  let s := dSet (dSet s 0x0201 6 (s.hub.energy / 1000 % 2 ^ 64)) 0x0201 7 (max (dGet s 0x0201 7) r.pMain)
  let s := (List.range 4).foldl (fun s n => dSet (dSet s 0x0202 (n + 1) (r.power.getD n 0)) 0x0203 (n + 1) (i32 (r.die.getD n 0))) s
  dSet (dSet (dSet (dSet s 0x0203 5 (i32 r.hub)) 0x0203 6 (i32 (r.gddr.foldl max (r.gddr.headD 0)))) 0x0203 7 (i32 r.coolIn)) 0x0203 8 (i32 r.coolOut)

/-! ### Throttle (R393, R394, Table 18.5) -/

/-- The next operating point down. -/
def stepDown (mhz : Nat) : Nat :=
  if mhz = 850 then 750 else if mhz = 750 then 600 else 400

/-- The next operating point up. -/
def stepUp (mhz : Nat) : Nat :=
  if mhz = 400 then 600 else if mhz = 600 then 750 else 850

/-- The Serving channels. -/
def servingChs (s : State) : List Nat :=
  (List.range 4).filter fun n => decide ((getCh s n).st = .serving)

/-- The operating point a channel has or has been asked for. -/
def pointOf (k : Channel) : Nat :=
  match k.oppReq with
  | some (t, _) => t
  | none => k.mhz

/-- The lowest operating point of the Serving channels. -/
def modulePoint (s : State) : Nat :=
  (servingChs s).foldl (fun m n => min m (pointOf (getCh s n))) 850

/-- The same operating point requested of every Serving channel, with a time of 0 (R393, R221). -/
def askPoint (s : State) (target : Nat) : State :=
  (servingChs s).foldl (fun s n => (oppRequest s n target 0).1) s

/-- The mean of the last `n` powers, none while fewer were read. -/
def meanPower (t : Throttle) (n : Nat) : Option Nat :=
  if t.powers.length < n then none else some ((t.powers.take n).sum / n)

/-- A time is at least `n` nanoseconds past another, or there is none. -/
def since (now n : Nat) (t : Option Nat) : Bool :=
  match t with
  | none => true
  | some t => decide (t + n ≤ now)

/-- The limit of a die, in millidegrees. -/
def dieLimit (s : State) : Int :=
  (BitVec.ofNat 32 (dGet s 0x0203 9)).toInt

/-- The gaps of Table 18.5 after one reading. -/
def gapStep (lim : Int) (r : Readings) (t : Throttle) : Throttle :=
  let hot := decide (1850000 < r.pMain)
  let calm := if hot then 0 else t.calm + 1
  { t with
    calm := calm
    gapPow := if hot then (if t.gapPow = 0 then 16 else max 2 (t.gapPow / 2)) else if 10 ≤ calm then 0 else t.gapPow
    gapThm := if r.die.any fun d => decide (lim + 5000 < d) then true else if r.die.all fun d => decide (d ≤ lim) then false else t.gapThm
    coolFor := if r.die.all fun d => decide (d ≤ lim - 5000) then t.coolFor + 1 else 0
    powers := (r.pMain :: t.powers).take 100 }

/-- One step lower for a power or a thermal trigger, at most one each 100 ms. -/
def lowerStep (s : State) (pow thm : Bool) : State :=
  let t := s.hub.thr
  if !(pow || thm) ∨ modulePoint s = 400 ∨ servingChs s = [] ∨ !since s.hub.time 100000000 t.stepAt then s
  else askPoint (updHub s fun h => { h with thr := { t with
    stepAt := some h.time, powSteps := t.powSteps + (if pow then 1 else 0), thmSteps := t.thmSteps + (if pow then 0 else 1) } })
    (stepDown (modulePoint s))

/-- One step higher, at most one each second, never above the ceiling of a channel (R393). -/
def raiseStep (s : State) (pow thm : Bool) : State :=
  let t := s.hub.thr
  let up := stepUp (modulePoint s)
  let undoPow := pow && decide (0 < t.powSteps)
  let undoThm := thm && decide (0 < t.thmSteps)
  if !(undoPow || undoThm) ∨ !since s.hub.time 1000000000 t.raiseAt ∨ (servingChs s).any (fun n => decide (opCeil s n < up)) then s
  else askPoint (updHub s fun h => { h with thr := { t with
    raiseAt := some h.time, powSteps := if undoPow then t.powSteps - 1 else t.powSteps
    thmSteps := if undoPow then t.thmSteps else t.thmSteps - 1 } }) up

/-- THR_STATE and THR_EPISODES (R394). -/
def thrState (s : State) (pow thm : Bool) : State :=
  let t := s.hub.thr
  let v := b2n (pow || decide (t.gapPow ≠ 0) || decide (t.powSteps ≠ 0)) + 2 * b2n (thm || t.gapThm || decide (t.thmSteps ≠ 0))
  let s := if dGet s 0x0204 1 = 0 ∧ v ≠ 0 then dSat s 0x0204 2 1 else s
  dSet s 0x0204 1 v

/-- The throttle evaluated on one reading (Table 18.5). -/
def throttle (s : State) (r : Readings) : State :=
  let lim := dieLimit s
  let s := updHub s fun h => { h with thr := gapStep lim r h.thr }
  let s := (List.range 4).foldl gapSet s
  let cap := dGet s 0x0201 8 * 1000
  let over_ := (meanPower s.hub.thr 10).any fun m => decide (cap < m)
  let low := (meanPower s.hub.thr 100).any fun m => decide (10 * m < 9 * cap)
  let hot := r.die.any fun d => decide (lim < d)
  let s := raiseStep (lowerStep s over_ hot) (low && !over_) (decide (1000 ≤ s.hub.thr.coolFor))
  thrState s over_ hot

/-- A channel at a critical temperature isolates; a reload of it is abandoned (R409, R398). -/
def criticalCh (r : Readings) (s : State) (ch : Nat) : State :=
  if !(decide (110000 ≤ r.die.getD ch 0) || decide (100000 < r.gddr.getD ch 0)) then s
  else
    let s := updCh s ch fun k => { k with oppReq := none }
    match (getCh s ch).st with
    | .serving => if (getCh s ch).req = 1 then s else startTransition s ch 1
    | .reloading => toIsolated s ch
    | _ => s

/-- What the hub does about the temperatures (R409). -/
def critical (s : State) (r : Readings) : State :=
  let s := (List.range 4).foldl (criticalCh r) s
  if 110000 < r.hub ∧ s.hub.modReq ≠ 1 then standbyStart s else s

/-- THROTTLE_EVALUATION (R361, R375, R393, R409): the readings in every powered state; the throttle once a management program runs. -/
def execThrottleEvaluation (r : Readings) (s : State) : Host.Outcome State Fault Refusal :=
  if s.hub.st = .off then .next s
  else
    let s := setReadings s r
    if s.hub.st = .standby then .next s
    else
      let s := if dGet s 0x0121 1 = 3 then throttle s r else s
      .next (critical s r)

end Sys2Proof.Machine
end

