-- ==== Sys2Proof/Machine/Security.lean ====
section
/-! DEFINITION. Security: owner keys (R379, R380) and the management program (R374, R375, Tables 17.4, 17.5). -/

namespace Sys2Proof.Machine

/-! ### Owner keys -/

/-- The keys that may sign a write of an owner-key slot (R379): any registered key, or the key being registered while none is. -/
def ownerSigners (s : State) (key : List Byte) : List (List Byte) :=
  if ownerKeys s = [] then (if allZero key then [] else [key]) else ownerKeys s

/-- The port may write an owner-key slot: either port once a key is registered; for the first, the management port, or the Ahnec port
while SEC_FIRST_AHNEC is true. -/
def ownerPort (s : State) (q : Req) : Bool :=
  decide (ownerKeys s ≠ []) || decide (q.port = .mgmt) || decide (dGet s 0x0300 9 = 1)

/-- The key stands in another slot. -/
def keyTwice (s : State) (slot : Nat) (key : List Byte) : Bool :=
  (List.range 4).any fun n => decide (n + 1 ≠ slot) && ownerKey s (n + 1) == key

/-- The refusal of an owner-key write (R379, R380), in the order length, port, key, signature (DESIGN CHOICE: assumption log, 31). -/
def ownerRefusal (s : State) (q : Req) (slot : Nat) (key sig : List Byte) : Option Nat :=
  if key.length ≠ 64 then some 0x04
  else if !ownerPort s q then some 0x09
  else if !allZero key && (!onCurve key || keyTwice s slot key) then some 0x05
  else if sig.length ≠ 64 ∨ !signedBy s 0x0301 slot key sig (ownerSigners s key) then some 0x07
  else none

/-- SEC_OWNER_KEY (R379, R380). -/
def execSecOwnerKey (q : Req) (n : BitVec 2) (key sig : List Byte) (s : State) : Host.Outcome State Fault Refusal :=
  let slot := n.toNat + 1
  .next (onWrite s q 0x0301 slot fun s =>
    match ownerRefusal s q slot key sig with
    | some e => answer s q e []
    | none => answer (countSigned (dSet s 0x0301 slot (leNat key))) q 0x00 [])

/-- A signed write of any other RWS object (R380): its value, and the 64 bytes of SIG behind it. -/
def signedWrite (s : State) (q : Req) (idx sub n : Nat) (bytes : List Byte) : State :=
  let v := bytes.take n
  if !signedBy s idx sub v (bytes.drop n) (ownerKeys s) then answer s q 0x07 []
  else answer (countSigned (dSet s idx sub (leNat v))) q 0x00 []

/-! ### The management program -/

/-- The bytes of the program received. -/
def progBytes (s : State) : List Byte :=
  memRead s.hub.mgmt.prog 0 s.hub.mgmt.progLen

/-- The largest program (Table 17.4). -/
def progMax : Nat := 16777216

/-- A header of Table 17.4 with MAGIC, VERSION and every zero field right. -/
def progHeaderOk (b : List Byte) : Bool :=
  decide (slice b 0 4 = [0x56, 0x4B, 0x4D, 0x31]) && decide (fld b 4 2 = 1) && allZero (slice b 13 19) && decide (fld b 12 1 < 4)

/-- LENGTH is the number of bytes written, and within its range. -/
def progLengthOk (b : List Byte) : Bool :=
  decide (fld b 8 4 = b.length) && decide (4096 ≤ b.length ∧ b.length ≤ progMax)

/-- STEPPINGS names this part's stepping. -/
def progFits (b : List Byte) : Bool :=
  bit (fld b 12 1) (if Config.isB1 then 1 else 0)

/-- The first check of Table 17.5 that a program fails. -/
def progRefusal (s : State) (b : List Byte) : Option Nat :=
  let key := beBytes 64 Config.fwKey.toNat
  if dGet s 0x0121 1 = 3 then some 0x01
  else if !progHeaderOk b then some 0x02
  else if !progLengthOk b then some 0x03
  else if slice b 64 32 ≠ keyHash key then some 0x04
  else if !sm2Verify key (sm3 (b.take 96)) (slice b 96 64) then some 0x05
  else if slice b 32 32 ≠ sm3 (b.drop 160) then some 0x06
  else if !progFits b then some 0x07
  else if fld b 6 2 < dGet s 0x0121 6 then some 0x08
  else none

/-- A program that passed runs: MGT_PROG_STATE 3, ID_MGMT_PROG its BODYHASH (R375). -/
def progStart (s : State) (b : List Byte) : State :=
  dSet (dSet (dSet s 0x0121 1 3) 0x0121 5 0) 0x0000 12 (leNat (slice b 32 32))

/-- A program refused: the code recorded; what ran before goes on (R375). -/
def progRefused (s : State) (code : Nat) : State :=
  dSet (if code = 1 then s else dSet s 0x0121 1 4) 0x0121 5 code

/-- MGT_PROG_GO (R375). -/
def execMgtProgGo (q : Req) (v : Byte) (s : State) : Host.Outcome State Fault Refusal :=
  .next (onTrue s q 0x0121 4 v fun s =>
    match progRefusal s (progBytes s) with
    | some code => answer (progRefused s code) q 0x00 []
    | none => answer (progStart s (progBytes s)) q 0x00 [])

/-- Bytes written through MGT_PROG_DATA (Table 17.11): in states 0, 1 and 4 alone; the first after a GO begin a program anew. -/
def progWrite (s : State) (q : Req) (bytes : List Byte) : State :=
  let st := dGet s 0x0121 1
  let off := dGet s 0x0121 2
  if 4096 < bytes.length then answer s q 0x04 []
  else if st = 2 ∨ st = 3 then answer s q 0x09 []
  else if progMax < off + bytes.length then answer s q 0x05 []
  else
    let s := updHub s fun h => { h with mgmt := if st = 1 then h.mgmt else { h.mgmt with prog := [], progLen := 0 } }
    let s := updHub s fun h => { h with mgmt := { h.mgmt with
      prog := memWrite h.mgmt.prog off bytes, progLen := max h.mgmt.progLen (off + bytes.length) } }
    answer (dSet s 0x0121 1 1) q 0x00 []

end Sys2Proof.Machine
end

