-- ==== Sys2Proof/Machine/Dictionary.lean ====
section
/-! DEFINITION. Dictionary: what each object reads (Tables 7.7, 9.8, 10.9, 11.13, 12.11, 13.10, 14.14, 15.12, 16.5-16.10, 17.11),
the core windows (R364-R366), dictionary reads and writes (R348, R352-R359), and quotes (R382, R383). -/

namespace Sys2Proof.Machine

/-! ### Codes -/

/-- AHN_LSTATE (Table 15.12). -/
def ahnCode (st : AhnSt) : Nat :=
  match st with
  | .disabled => 0
  | .shutdown => 1
  | .restarting => 2
  | .dark => 3
  | .training => 4
  | .up => 5

/-- MOD_STATE (Table 16.6); Off cannot be read. -/
def modCode (st : ModSt) : Nat :=
  match st with
  | .off => 0
  | .standby => 1
  | .ready => 2
  | .serving => 3

/-- JOB_STATE (Table 11.13). -/
def jobStateCode (st : JobSt) : Nat :=
  match st with
  | .free => 0
  | .receiving => 1
  | .loaded => 2
  | .running => 3
  | .ended => 4
  | .rejected => 5

/-- CW_STATUS (Table 16.9). -/
def cwStatus (st : CoreStatus) : Nat :=
  match st with
  | .noTask => 0
  | .running => 1
  | .done => 1
  | .holding => 2
  | .stopped => 2
  | .halted => 3
  | .unavailable => 4
  | .ended => 5

/-! ### Numbers -/

/-- Commits that wait for acceptance (JNL_HELD). -/
def heldCommits (s : State) : Nat :=
  ((List.range 4).flatMap fun n => (getCh s n).jobs.flatMap fun e => e.2.commits.filter fun c => !c.accepted).length

/-- JOB_STEP: the step last released. -/
def jobStep (b : Job) : Nat :=
  b.released - 1

/-- JOB_SEED: the value of the selected slot. -/
def seedValue (s : State) (j : Nat) : Nat :=
  ((tabFind (getJob s j).seeds (dGet s (0x640 + j) 8)).map (·.value.toNat)).getD 0

/-- What the device computes for an object of the module; none where the stored value is read. -/
def modNum (s : State) (idx sub : Nat) : Option Nat :=
  let h := s.hub
  match idx, sub with
  | 0x0000, 3 => some (if Config.isB1 then 0xB1 else 0xA2)
  | 0x0000, 4 => some (b2n Config.isListed)
  | 0x0000, 7 => some (if Config.isB1 then 3 else 1)
  | 0x0001, 4 => some h.boardPos
  | 0x0110, 2 => some (ahnCode (getAhn s 0).st)
  | 0x0111, 2 => some (ahnCode (getAhn s 1).st)
  | 0x0120, 1 => some (0x30 + h.boardPos)
  | 0x0120, 2 => some h.mgmt.dyn
  | 0x0120, 3 => some h.mgmt.eid
  | 0x0200, 1 => some (modCode h.st)
  | 0x0200, 2 => some h.modReq
  | 0x0200, 5 => some (servingMask s)
  | 0x0300, 1 => some Config.certChain.length
  | 0x0300, 8 => some h.rwsCount
  | 0x0400, 3 => some h.jnl.bufUsed
  | 0x0400, 4 => some h.jnl.seq
  | 0x0400, 5 => some h.jnl.epoch
  | 0x0400, 6 => some h.jnl.seg
  | 0x0400, 14 => some (heldCommits s)
  | 0x0500, 2 => some h.uptime
  | 0x0510, 5 => some (tpkState s (dGet s 0x0510 1))
  | 0x0600, 4 => some (hashFree s)
  | _, _ =>
    if 0x0401 ≤ idx ∧ idx ≤ 0x0402 then
      let b := getBay s (idx - 0x0401)
      match sub with
      | 1 => some (bayCode b.st)
      | 3 => some b.written
      | 4 => some b.cap
      | _ => none
    else if 0x0640 ≤ idx ∧ idx ≤ 0x067F then
      let b := getJob s (idx - 0x0640)
      match sub with
      | 1 => some (jobStateCode b.st)
      | 9 => some (seedValue s (idx - 0x0640))
      | 10 => some b.launch
      | 11 => some (jobStep b)
      | _ => none
    else none

/-- FAM_PROBE_RESULT (Table 9.8): the entry that a translation would use. -/
def probe (s : State) (ch : Nat) : Nat :=
  let k := getCh s ch
  let a := cGet s ch 0x303 2
  match regionAt k (cGet s ch 0x303 1) a with
  | none => 0x29 * 2 ^ 56
  | some r =>
    let n := r.first + (a - r.base * 65536) / pageSize r.psz
    if bit (famGet k n) 63 then n else 0x29 * 2 ^ 56

/-- CH_JOBS: the slots with a placed task in the channel (Table 16.8). -/
def chJobs (s : State) (ch : Nat) : Nat :=
  (s.hub.jobs.map fun e => if jobLive e.2 ∧ (jobChans e.2).contains ch then 2 ^ e.1 else 0).sum

/-- Cores of a channel that are UNAVAILABLE. -/
def lostCores (k : Channel) : Nat :=
  (k.cores.filter fun e => e.2.status == .unavailable).length

/-- The core that CW_SEL chooses. -/
def cwCore (s : State) (ch : Nat) : CoreId :=
  mkCore ch (cGet s ch 0x600 1)

/-- CW_FLAGS (Table 16.9). -/
def cwFlags (c : Core) : Nat :=
  (ecrGet c 0x3C8).toNat % 16 * 2 ^ 20 + (ecrGet c 0x200).toNat % 16 * 2 ^ 16 + (ecrGet c 0x100).toNat % 65536

/-- A status object of the core window (Table 16.9). -/
def cwNum (s : State) (ch sub : Nat) : Option Nat :=
  let id := cwCore s ch
  let k := getCh s ch
  let c := getCore s id
  let ecr := fun a => (ecrRead k (inCh id) id c a).toNat
  match sub with
  | 2 => some (ecr 0x000)
  | 3 => some (cwStatus c.status)
  | 4 => some c.job
  | 5 => some ((c.halt.map haltBits).getD 0)
  | 6 => some (c.base * 2 ^ 10 + c.bound)
  | 7 => some (c.pc % 4096)
  | 8 => some (cwFlags c)
  | 9 => some (ecr 0x3CB % 32 * 2 ^ 16 + ecr 0x3C0 % 65536)
  | 10 => some c.sched
  | _ => none

/-- What the device computes for an object of a channel, by its offset. -/
def chNum (s : State) (ch off sub : Nat) : Option Nat :=
  let k := getCh s ch
  match off, sub with
  | 0x000, 2 => some (chCode k.st)
  | 0x000, 3 => some (if k.heldReq = 0 then k.req else k.heldReq)
  | 0x000, 4 => some (b2n (chIdle s ch))
  | 0x000, 5 => some (chJobs s ch)
  | 0x000, 8 => some (128 - lostCores k)
  | 0x100, 1 => some k.mhz
  | 0x100, 4 => some (opCeil s ch)
  | 0x100, 5 => some k.cycles
  | 0x100, 6 => some k.sched
  | 0x100, 8 => some k.wander
  | 0x101, 5 => some (min k.brake.len 0xFFFFFFFF)
  | 0x103, 1 => some k.ftEnd
  | 0x103, 2 => some k.ftState
  | 0x300, 2 => some (ownDev s)
  | 0x300, 3 => some k.staged.length
  | 0x303, 3 => some (probe s ch)
  | 0x500, 2 => some (k.objs.filter fun e => e.2.job.isSome).length
  | 0x503, 2 => some (objOf k (cGet s ch 0x503 1)).ctr
  | 0x700, 9 => some k.sideUsed
  | _, _ =>
    if off = 0x600 then cwNum s ch sub
    else if 0x410 ≤ off ∧ off ≤ 0x417 ∧ sub = 2 then some (portCode (getPort k (off - 0x410)).st)
    else none

/-- The value of an object that is a number. -/
def dictNum (s : State) (idx sub : Nat) : Nat :=
  ((if 0x1000 ≤ idx then chNum s (idx / 0x1000 - 1) (idx % 0x1000) sub else modNum s idx sub).getD (dGet s idx sub))

/-! ### Strings of octets -/

/-- The ordering code (Table 0.1). -/
def orderCode : List Byte :=
  [0x56, 0x4B, 0x34, 0x38, 0x30, 0x4D, 0x2D] ++ (if Config.isB1 then [0x42, 0x31] else [0x41, 0x32]) ++
    (if Config.isListed then [0x2D, 0x4C] else [])

/-- A window of up to 4,096 bytes of a longer string (R359). -/
def window (bs : List Byte) (off : Nat) : List Byte :=
  slice bs off 4096

/-- The window of the management program: up to the bytes written. -/
def progWindow (s : State) : List Byte :=
  let off := dGet s 0x0121 2
  memRead s.hub.mgmt.prog off (min 4096 (s.hub.mgmt.progLen - off))

/-- The placement window: up to 128 records from the selected one. -/
def placeWindow (s : State) (j : Nat) : List Byte :=
  let sel := dGet s (0x640 + j) 6
  (List.range (min 128 (8192 - sel))).flatMap fun i => padTo 32 (tabGet (getJob s j).place [] (sel + i))

/-- A string object of the module; none where the stored value is read. -/
def modOct (s : State) (idx sub : Nat) : Option (List Byte) :=
  match idx, sub with
  | 0x0000, 1 => some [0x56, 0x4B, 0x34, 0x38, 0x30, 0x4D]
  | 0x0000, 2 => some orderCode
  | 0x0000, 5 => some serialBytes
  | 0x0000, 10 => some (beBytes 64 Config.deviceKey.toNat)
  | 0x0000, 11 => some (beBytes 32 Config.romHash.toNat)
  | 0x0110, 8 => some ((List.range 8).flatMap fun c => leBytes 2 (min 65535 (tabGet (getAhn s 0).credits 0 c)))
  | 0x0111, 8 => some ((List.range 8).flatMap fun c => leBytes 2 (min 65535 (tabGet (getAhn s 1).credits 0 c)))
  | 0x0121, 3 => some (progWindow s)
  | 0x0300, 3 => some (window Config.certChain (dGet s 0x0300 2))
  | 0x0300, 4 => some (beBytes 32 Config.rootHash.toNat)
  | 0x0300, 5 => some (beBytes 64 Config.fwKey.toNat)
  | 0x0300, 6 => some (beBytes 64 Config.testKey.toNat)
  | 0x0300, 7 => some (beBytes 32 s.hub.nonce.toNat)
  | 0x0510, 3 => some (window (tpkBytes s (dGet s 0x0510 1)) (dGet s 0x0510 2))
  | 0x0600, 6 => some (leBytes 16 ((s.hub.hazards[dGet s 0x0600 5]?.map (·.toNat)).getD 0))
  | _, _ =>
    if 0x0401 ≤ idx ∧ idx ≤ 0x0402 then
      match sub with
      | 2 => some (padTo 16 (getBay s (idx - 0x0401)).serial)
      | 7 => some (window (getBay s (idx - 0x0401)).cert (dGet s idx 6))
      | 8 => some (beBytes 64 (getBay s (idx - 0x0401)).receipt.toNat)
      | _ => none
    else if 0x0640 ≤ idx ∧ idx ≤ 0x067F ∧ sub = 7 then some (placeWindow s (idx - 0x0640))
    else if 0x0640 ≤ idx ∧ idx ≤ 0x067F ∧ sub = 3 then some (leBytes 16 (dGet s idx 3))
    else none

/-! ### Core windows (R364-R366) -/

/-- Units of a core's scratchpad; a segment that is not ON reads zero (Table 16.9). -/
def cwSpad (c : Core) (unit n : Nat) : List Byte :=
  (List.range (min n (c.bound * 128 - unit))).flatMap fun i =>
    if segOn c (unit + i) then memRead c.spad (spadAddr c (unit + i)) 32 else zeros 32

/-- A loop level in CW_LOOPS. -/
def cwLoop (c : Core) (l : Nat) : List Byte :=
  let p := loopOf c l
  leBytes 4 p.count ++ leBytes 4 p.shadow ++ leBytes 4 p.index ++ leBytes 2 (p.start % 4096) ++ leBytes 2 (p.stop % 4096 + b2n p.active * 32768)

/-- Row words of a ring. -/
def cwRing (c : Core) (a : Nat) : List Byte :=
  (List.range (min 128 (4096 - a))).flatMap fun i => leBytes 32 ((tabGet c.ring 0 (a + i)).toNat)

/-- A page of CW_MSG_DUMP: the copy a seize took, or the present state. -/
def cwPage (k : Channel) (c : Core) (free p : Nat) : List Byte :=
  match c.dumped[p]? with
  | some b => b
  | none => msgPage k c free p

/-- A data object of a core window, in a status that R364 allows; an unassigned register is refused 0x05. -/
def cwData (s : State) (ch off sub free : Nat) : Except Nat (List Byte) :=
  let id := cwCore s ch
  let k := getCh s ch
  let c := getCore s id
  match off, sub with
  | 0x601, 1 => .ok ((List.range 16).flatMap fun r => leBytes 4 (gReg c r).toNat)
  | 0x601, 2 => .ok ((List.range 4).flatMap (cwLoop c))
  | 0x601, 4 =>
    let a := cGet s ch 0x601 3
    if ecrWritable a ∨ ecrReadOnly a then .ok (leBytes 4 (ecrRead k (inCh id) id c a).toNat) else .error 0x05
  | 0x602, 3 => .ok (cwSpad c (cGet s ch 0x602 1) (cGet s ch 0x602 2 / 32))
  | 0x602, 5 => .ok (memRead c.dmem (cGet s ch 0x602 4) (min 4096 (65536 - cGet s ch 0x602 4)))
  | 0x602, 7 => .ok (cwRing c (cGet s ch 0x602 6))
  | 0x603, 2 => .ok (bytesOf (vReg c (cGet s ch 0x603 1)))
  | _, _ => .ok (cwPage k c free (cGet s ch 0x603 3))

/-- The data objects of a core window. -/
def isCwData (off sub : Nat) : Bool :=
  [(0x601, 1), (0x601, 2), (0x601, 4), (0x602, 3), (0x602, 5), (0x602, 7), (0x603, 2), (0x603, 4)].contains (off, sub)

/-- A core window read: refused 0x09 in status 0, 1 and 4 (R364). -/
def cwRead (s : State) (ch off sub free : Nat) : Except Nat (List Byte) :=
  let st := cwStatus (getCore s (cwCore s ch)).status
  if st = 0 ∨ st = 1 ∨ st = 4 then .error 0x09 else cwData s ch off sub free

/-- The cluster map of a cluster (R280). -/
def clusterMap (k : Channel) (cl : Nat) : List Byte :=
  ((List.range 16).flatMap fun i => leBytes 1 (posOf k (16 * cl + i))) ++ (List.range 17).flatMap fun p => leBytes 1 (posCode (posState k cl p))

/-- A string object of a channel; none where the stored value is read. -/
def chOct (s : State) (ch off sub : Nat) : Option (List Byte) :=
  let k := getCh s ch
  if off = 0x301 ∧ 1 ≤ sub then some (leBytes 16 (((tabFind k.regions (sub - 1)).map regionRaw).getD 0))
  else if off = 0x702 ∧ 1 ≤ sub then some (clusterMap k (sub - 1))
  else if 0x410 ≤ off ∧ off ≤ 0x417 ∧ sub = 13 then
    some ((List.range 4).flatMap fun v => leBytes 2 (tabGet (getPort k (off - 0x410)).credits 0 v))
  else match off, sub with
    | 0x101, 7 => some (leBytes 32 ((k.brakeLog[cGet s ch 0x101 6]?.map (·.toNat)).getD 0))
    | 0x302, 3 =>
      let first := cGet s ch 0x302 1
      some ((List.range (min (cGet s ch 0x302 2) (524288 - first))).flatMap fun i => leBytes 8 (famGet k (first + i)))
    | 0x400, 4 =>
      let first := cGet s ch 0x400 2
      some ((List.range (min (cGet s ch 0x400 3) (16384 - first))).flatMap fun i => leBytes 4 (routeRead k (first + i)))
    | 0x502, 2 => some ((k.dump[cGet s ch 0x502 1]?).getD (zeros 4096))
    | 0x704, 2 => some (padTo 256 ((k.fsigs[cGet s ch 0x704 1]?.map (·.bytes)).getD []))
    | 0x704, 3 => some (padTo 4096 (((k.fsigs.take 16)[cGet s ch 0x704 1]?.map (·.pattern)).getD []))
    | 0x705, 6 => some (padTo 16 k.inspRes)
    | _, _ => none

/-! ### Reads (R348, R354) -/

/-- The bytes of an object that reads without more ado, with the STATUS of a refused one. -/
def dictBytes (s : State) (o : Obj) (idx sub free : Nat) : Except Nat (List Byte) :=
  let ch := idx / 0x1000 - 1
  let off := idx % 0x1000
  if 0x1000 ≤ idx ∧ isCwData off sub then cwRead s ch off sub free
  else match (if 0x1000 ≤ idx then chOct s ch off sub else modOct s idx sub) with
    | some b => .ok b
    | none => match o.type.bytes with
      | some n => .ok (leBytes n (dictNum s idx sub))
      | none => .ok []

/-- The object of a channel's drawbar to itself is absent (R329). -/
def absentPort (idx : Nat) : Bool :=
  decide (0x1000 ≤ idx) && decide (idx % 0x1000 = 0x414 + (idx / 0x1000 - 1))

/-- A reading that no rule gives a value: the received power of a link (Table 15.12). -/
def isReading (idx sub : Nat) : Bool :=
  decide (idx = 0x0110 ∨ idx = 0x0111) && decide (sub = 3)

/-- BAY_READ_DATA (Table 13.10): a READ goes to the cartridge, whose answer answers the request; an empty bay reads nothing. -/
def bayReadData (s : State) (q : Req) (b : Nat) : State :=
  let st := (getBay s b).st
  if st = .empty ∨ st = .linkFault then answer s q 0x00 []
  else
    let tag := (getBay s b).nextTag
    bayCommand (updBay s b fun y => { y with reads := y.reads ++ [(tag, q)] }) b 0x20 (dGet s (0x0401 + b) 10) (leBytes 4 4096)

/-- DICT_READ on an object that exists and is reached. -/
def readObject (s : State) (q : Req) (o : Obj) (idx sub : Nat) : State :=
  if o.acc = .wo then answer s q 0x03 []
  else if (idx = 0x0401 ∨ idx = 0x0402) ∧ sub = 11 then bayReadData s q (idx - 0x0401)
  else if isReading idx sub then
    let (f, s) := drawFree s
    answer s q 0x00 (freeBytes f 4)
  else
    let (f, t) := if 0x1000 ≤ idx ∧ idx % 0x1000 = 0x603 ∧ sub = 4 then drawFree s else (0, s)
    match dictBytes s o idx sub f with
    | .ok b => answer t q 0x00 b
    | .error e => answer t q e []

/-- A dictionary read (R348). -/
def dictRead (s : State) (q : Req) (idx sub : Nat) : State :=
  if !portUp s q then s
  else if absentPort idx then answer s q 0x01 []
  else match reachGate s q idx sub false, objFind idx sub with
    | some e, _ => answer s q e []
    | none, none => answer s q 0x02 []
    | none, some o => readObject s q o idx sub

/-- DICT_READ. -/
def execDictRead (q : Req) (idx : BitVec 16) (sub : Byte) (s : State) : Host.Outcome State Fault Refusal :=
  .next (dictRead s q idx.toNat sub.toNat)

/-! ### Writes (R348, R353, R354) -/

/-- Bytes written into a package through TPK_DATA (R275): the package is being received. -/
def tpkWrite (s : State) (q : Req) (bytes : List Byte) : State :=
  let slot := dGet s 0x0510 1
  let off := dGet s 0x0510 2
  if 4096 < bytes.length then answer s q 0x04 []
  else if progMax < off + bytes.length then answer s q 0x05 []
  else
    let old := padTo (max (tpkBytes s slot).length (off + bytes.length)) (tpkBytes s slot)
    answer (setTpk (updHub s fun h => { h with tpks := tabSet h.tpks slot (old.take off ++ bytes ++ old.drop (off + bytes.length)) }) slot 1) q 0x00 []

/-- The first byte of a value. -/
def byte0 (bs : List Byte) : Byte :=
  bs.headD 0

/-- A write of a module object that is a command; none for a plain setting. -/
def modWrite (s : State) (q : Req) (idx sub : Nat) (bs : List Byte) : Option (Host.Outcome State Fault Refusal) :=
  let v := byte0 bs
  let n := leNat bs
  match idx, sub with
  | 0x0110, 1 => some (if n = 1 then execAhnEnable q 0 s else execAhnDisable q 0 s)
  | 0x0111, 1 => some (if n = 1 then execAhnEnable q 1 s else execAhnDisable q 1 s)
  | 0x0121, 3 => some (.next (progWrite s q bs))
  | 0x0121, 4 => some (execMgtProgGo q v s)
  | 0x0200, 2 => some (if n = 1 then execModStandbyRequest q s else execModReadyRequest q s)
  | 0x0200, 3 => some (execModHubReset q v s)
  | 0x0400, 9 => some (execJnlSealNow q v s)
  | 0x0401, 5 => some (execBayEject q 0 v s)
  | 0x0402, 5 => some (execBayEject q 1 v s)
  | 0x0510, 3 => some (.next (tpkWrite s q bs))
  | 0x0510, 4 => some (execTpkVerify q v s)
  | _, _ =>
    if 0x0640 ≤ idx ∧ idx ≤ 0x067F then
      let j := BitVec.ofNat 6 (idx - 0x0640)
      match sub with
      | 2 => some (execJobOpen q j v s)
      | 7 => some (execJobPlace q j bs s)
      | 9 => some (execJobSeed q j (BitVec.ofNat 64 n) s)
      | 10 => some (execJobLaunch q j (BitVec.ofNat 64 n) s)
      | 12 => some (execJobBarrier q j v s)
      | 13 => some (execJobRelease q j v s)
      | _ => none
    else none

/-- A write of CH_REQUEST by its value. -/
def requestWrite (s : State) (q : Req) (ch : ChId) (v : Nat) : Host.Outcome State Fault Refusal :=
  match v with
  | 1 => execChIsolate q ch s
  | 2 => execChReload q ch s
  | 3 => execChReset q ch s
  | _ => execChServe q ch s

/-- FT_SOURCE or FT_MASTER written (R224): the channel takes its time source anew. -/
def sourceWrite (s : State) (q : Req) (n sub : Nat) (bs : List Byte) : Host.Outcome State Fault Refusal :=
  .next (answer (ftSelect (dSet s (cIdx n 0x103) sub (leNat bs)) n) q 0x00 [])

/-- A write of a channel object that is a command; none for a plain setting. -/
def chWrite (s : State) (q : Req) (n off sub : Nat) (bs : List Byte) : Option (Host.Outcome State Fault Refusal) :=
  let ch := BitVec.ofNat 2 n
  let v := byte0 bs
  match off, sub with
  | 0x000, 3 => some (requestWrite s q ch (leNat bs))
  | 0x100, 3 => some (execChOppointAt q ch (BitVec.ofNat 64 (leNat bs)) s)
  | 0x103, 3 => some (sourceWrite s q n sub bs)
  | 0x103, 8 => some (sourceWrite s q n sub bs)
  | 0x302, 3 => some (execFamWinData q ch bs s)
  | 0x400, 4 => some (execLnkRouteData q ch bs s)
  | 0x501, 4 => some (execSyncGrantApply q ch v s)
  | 0x502, 3 => some (execSyncDumpTake q ch v s)
  | 0x600, 11 => some (execCwHaltCmd q ch v s)
  | 0x701, 2 => some (execChkRevokeGo q ch v s)
  | 0x703, 1 => some (execChkPosRestore q ch v s)
  | 0x703, 2 => some (execChkSeizePos q ch v s)
  | 0x705, 5 => some (execChkInspArm q ch v s)
  | _, _ =>
    if off = 0x301 ∧ 1 ≤ sub then some (execFamRegionWrite q ch (BitVec.ofNat 6 (sub - 1)) bs s)
    else if 0x410 ≤ off ∧ off ≤ 0x417 ∧ sub = 1 then
      some (if leNat bs = 1 then execLnkEnable q ch (BitVec.ofNat 3 (off - 0x410)) s else execLnkDisable q ch (BitVec.ofNat 3 (off - 0x410)) s)
    else if 0x510 ≤ off ∧ off ≤ 0x52F ∧ sub = 3 then some (execSyncWatchArm q ch (BitVec.ofNat 5 (off - 0x510)) v s)
    else none

/-- A write whose gates are passed: a command's effect, or the value stored. -/
def writeObject (s : State) (q : Req) (idx sub : Nat) (bs : List Byte) : Host.Outcome State Fault Refusal :=
  match (if 0x1000 ≤ idx then chWrite s q (idx / 0x1000 - 1) (idx % 0x1000) sub bs else modWrite s q idx sub bs) with
  | some r => r
  | none => .next (answer (dSet s idx sub (leNat bs)) q 0x00 [])

/-- A signed write (R380): the value and its SIG, by length. -/
def writeSigned (s : State) (q : Req) (o : Obj) (idx sub : Nat) (bs : List Byte) : Host.Outcome State Fault Refusal :=
  let n := o.type.bytes.getD 0
  if bs.length ≠ n ∧ bs.length ≠ n + 64 then .next (answer s q 0x04 [])
  else if idx = 0x0301 then execSecOwnerKey q (BitVec.ofNat 2 (sub - 1)) (bs.take n) (bs.drop n) s
  else match valueGate o (bs.take n) with
    | some e => .next (answer s q e [])
    | none => .next (signedWrite s q idx sub n bs)

/-- A dictionary write (R348). -/
def dictWrite (s : State) (q : Req) (idx sub : Nat) (bs : List Byte) : Host.Outcome State Fault Refusal :=
  if !portUp s q then .next s
  else if absentPort idx then .next (answer s q 0x01 [])
  else match writeGate s q idx sub, objFind idx sub with
    | some e, _ => .next (answer s q e [])
    | none, none => .next (answer s q 0x02 [])
    | none, some o =>
      if o.acc = .rws then writeSigned s q o idx sub bs
      else match valueGate o bs with
        | some e => .next (answer s q e [])
        | none => writeObject s q idx sub bs

/-- DICT_WRITE. -/
def execDictWrite (q : Req) (idx : BitVec 16) (sub : Byte) (bytes : List Byte) (s : State) : Host.Outcome State Fault Refusal :=
  dictWrite s q idx.toNat sub.toNat bytes

/-! ### Quotes (R382, R383) -/

/-- The slots a mask selects, ascending. -/
def quoteSlots (mask : Nat) : List Nat :=
  (List.range 64).filter fun j => mask.testBit j

/-- A quote request is refused with 0x05 (R382). -/
def quoteRefused (s : State) (q : Req) (mask : Nat) : Bool :=
  decide (32 < (quoteSlots mask).length) || (decide (q.port = .mgmt) && decide (s.hub.st = .standby) && decide (mask ≠ 0))

/-- A selected slot in a quote (Table 17.9); a FREE slot has zero hashes. -/
def quoteSlot (s : State) (j : Nat) : List Byte :=
  let b := getJob s j
  leBytes 2 j ++ leBytes 1 (jobStateCode b.st) ++ zeros 5 ++ leBytes 8 (jobStep b) ++
    (if b.st = .free then zeros 128
     else leBytes 32 (dGet s (0x640 + j) 4) ++ leBytes 32 (dGet s (0x640 + j) 5) ++ sm3 (b.latched.flatMap (·.2)) ++ sm3 (seedBytes b)) ++ zeros 16

/-- The bytes of a quote before its DIGEST (Table 17.9). -/
def quoteBody (s : State) (nonce : List Byte) (mask : Nat) : List Byte :=
  let js := quoteSlots mask
  [0x56, 0x4B, 0x51, 0x31] ++ leBytes 2 1 ++ leBytes 2 js.length ++ padTo 32 nonce ++ serialBytes ++ leBytes 8 (hubTime s) ++
    beBytes 32 s.hub.nonce.toNat ++ beBytes 32 Config.romHash.toNat ++ leBytes 32 (dGet s 0x0000 12) ++ leBytes 32 (dGet s 0x0000 8) ++
    leBytes 32 (dGet s 0x0000 9) ++ sm3 ((List.range 4).flatMap fun n => ownerKey s (n + 1)) ++
    leBytes 1 (dGet s 0x0600 2) ++ leBytes 1 (dGet s 0x0600 3) ++ leBytes 1 (dGet s 0x0400 1) ++ leBytes 1 (dGet s 0x0400 13) ++
    leBytes 1 (modCode s.hub.st) ++ leBytes 1 (servingMask s) ++ zeros 2 ++ leBytes 8 s.hub.jnl.seq ++ leBytes 32 (dGet s 0x0400 12) ++
    zeros 16 ++ js.flatMap (quoteSlot s)

/-- A quote, signed by the device key over its DIGEST (R376, R383). -/
def quote (s : State) (free : Nat) (nonce : List Byte) (mask : Nat) : List Byte :=
  let body := quoteBody s nonce mask
  body ++ sm3 body ++ beBytes 64 (Config.deviceSig free (sm3 body)).toNat

/-- A quote request answered on its port: attestation OP 0x02 with the request's CSEQ, or QUOTE (R382). -/
def quoteAnswer (s : State) (q : Req) (status : Nat) (b : List Byte) : State :=
  match q.port with
  | .ahnec => ahnSend s 6 2 status 0xFFFF (BitVec.ofNat 64 q.cseq.toNat) b
  | .mgmt => mgmtSend s (vendorMsg 6 q.cseq.toNat status b)

/-- QUOTE_REQ (R382, R383). -/
def execQuoteReq (q : Req) (nonce : List Byte) (mask : BitVec 64) (s : State) : Host.Outcome State Fault Refusal :=
  if !portUp s q || !mgmtHears s q then .next s
  else if quoteRefused s q mask.toNat then .next (quoteAnswer s q 0x05 [])
  else
    let r := drawFree s
    .next (quoteAnswer r.2 q 0x00 (quote s r.1 nonce mask.toNat))

end Sys2Proof.Machine
end

