-- ==== Sys2Proof/Machine/Mgmt.lean ====
section
/-! DEFINITION. Mgmt: the management port (R369-R373): vendor messages, I3C common command codes, MCTP control messages.
Layouts of I3C and MCTP that R369 takes from the published standards are PRESUMED: assumption log, 26. -/

namespace Sys2Proof.Machine

/-! ### Vendor messages (R371, R372) -/

/-- A discarded message (R371). -/
def mgmtDrop (s : State) : State :=
  dSat s 0x0120 5 1

/-- A vendor message is discarded: too long, an enterprise number other than MGT_IANA, an unknown code, a type byte or a header that
is not Table 17.2's (R371). -/
def vendorBad (m : List Byte) : Bool :=
  decide (6144 < m.length) || decide (m.length < 9) || decide (m.take 5 ≠ [0x7F, 0x00, 0x00, 0xF1, 0xB1]) ||
    !([1, 3, 5].contains (fld m 5 1))

/-- The body of DICT_REQ served as a dictionary request (R372, Table 17.3): a body shorter than its fields or than the value length it
names is refused 0x04, an op that is neither read nor write 0x05. -/
def dictReqBody (s : State) (q : Req) (b : List Byte) : Host.Outcome State Fault Refusal :=
  let idx := fld b 2 2
  let sub := fld b 4 1
  let len := fld b 6 2
  if b.length < 8 then .next (answer s q 0x04 [])
  else if fld b 0 1 = 1 then .next (dictRead s q idx sub)
  else if fld b 0 1 ≠ 2 then .next (answer s q 0x05 [])
  else if b.length ≠ 8 + len ∧ b.length ≠ 8 + len + 64 then .next (answer s q 0x04 [])
  else dictWrite s q idx sub (b.drop 8)

/-- EVENTS (Table 17.3): up to n records of the management store, oldest first, and the number lost since the last fetch. -/
def eventFetch (s : State) (tag n : Nat) : State :=
  let m := s.hub.mgmt
  let rs := m.store.take n
  let body := leBytes 1 rs.length ++ leBytes 2 m.lost ++ [0] ++ rs.flatten
  mgmtSend (updHub s fun h => { h with mgmt := { h.mgmt with store := m.store.drop n, lost := 0 } }) (vendorMsg 4 tag 0 body)

/-- EVENT_FETCH's body: a record count outside 1 to 64 is answered 0x05 and fetches nothing. -/
def eventBody (s : State) (tag : Nat) (b : List Byte) : State :=
  let n := fld b 0 1
  if 1 ≤ n ∧ n ≤ 64 then eventFetch s tag n else mgmtSend s (vendorMsg 4 tag 0x05 (zeros 4))

/-- A vendor message (Tables 17.2, 17.3). -/
def vendorIn (s : State) (m : List Byte) : Host.Outcome State Fault Refusal :=
  let q : Req := ⟨.mgmt, BitVec.ofNat 32 (fld m 6 1)⟩
  if !portUp s q || !mgmtHears s q then .next s
  else if vendorBad m then .next (mgmtDrop s)
  else if fld m 5 1 = 1 then dictReqBody s q (m.drop 9)
  else if fld m 5 1 = 3 then .next (eventBody s (fld m 6 1) (m.drop 9))
  else execQuoteReq q (slice m 9 32) (BitVec.ofNat 64 (fld m 41 8)) s

/-- DICT_REQ. -/
def execDictReq (bytes : List Byte) (s : State) : Host.Outcome State Fault Refusal :=
  vendorIn s bytes

/-- EVENT_FETCH. -/
def execEventFetch (bytes : List Byte) (s : State) : Host.Outcome State Fault Refusal :=
  vendorIn s bytes

/-! ### I3C (R369, R370, R372) -/

/-- A change of the management port's registers, while auxiliary power is there (R373). -/
def mgmtSet (s : State) (f : Mgmt → Mgmt) : State :=
  if s.hub.st = .off then s else updHub s fun h => { h with mgmt := f h.mgmt }

/-- The bytes a GET command returns: from a target with a dynamic address. -/
def cccGet (s : State) (bs : List Byte) : State :=
  mgmtSet s fun m => if m.dyn = 0 then m else { m with ccc := m.ccc ++ [bs] }

/-- The static address (MGT_STATIC_ADDR, R370). -/
def staticAddr (s : State) : Nat :=
  0x30 + s.hub.boardPos

/-- The provisional ID, most significant byte first (R370). -/
def provisionalId : List Byte :=
  beBytes 6 (Config.mipiId.toNat * 2 ^ 33 + 2 ^ 32 + Config.serial.toNat % 2 ^ 32)

/-- The bus characteristics register (R369): a target, no HDR, no offline state, interrupts with a mandatory byte, no speed limit. -/
def busChar : Byte :=
  0x06

/-- GETSTATUS's two bytes: the pending-interrupt field shows a waiting packet while interrupts are disabled (R372). -/
def i3cStatus (m : Mgmt) : List Byte :=
  [0, if !m.ibi ∧ m.answers ≠ [] then 1 else 0]

/-- ENTDAA (R370): a target without a dynamic address sends its provisional ID and registers and takes the address. -/
def execEntdaa (addr : BitVec 7) (s : State) : Host.Outcome State Fault Refusal :=
  .next (mgmtSet s fun m =>
    if m.dyn = 0 then { m with dyn := addr.toNat, ccc := m.ccc ++ [provisionalId ++ [busChar, Config.i3cDcr]] } else m)

/-- SETDASA (R370): the target at that static address, without a dynamic one, takes it. -/
def execSetdasa (static addr : BitVec 7) (s : State) : Host.Outcome State Fault Refusal :=
  .next (mgmtSet s fun m => if m.dyn = 0 ∧ static.toNat = staticAddr s then { m with dyn := addr.toNat } else m)

/-- RSTDAA (R369): the dynamic address is given up. -/
def execRstdaa (s : State) : Host.Outcome State Fault Refusal :=
  .next (mgmtSet s fun m => { m with dyn := 0 })

/-- GETPID (R370). -/
def execGetpid (s : State) : Host.Outcome State Fault Refusal :=
  .next (cccGet s provisionalId)

/-- GETBCR (R369). -/
def execGetbcr (s : State) : Host.Outcome State Fault Refusal :=
  .next (cccGet s [busChar])

/-- GETDCR (R369). -/
def execGetdcr (s : State) : Host.Outcome State Fault Refusal :=
  .next (cccGet s [Config.i3cDcr])

/-- GETSTATUS (R372). -/
def execGetstatus (s : State) : Host.Outcome State Fault Refusal :=
  .next (cccGet s (i3cStatus s.hub.mgmt))

/-- GETMRL (R369). -/
def execGetmrl (s : State) : Host.Outcome State Fault Refusal :=
  .next (cccGet s (beBytes 2 s.hub.mgmt.mrl))

/-- SETMRL (R369). -/
def execSetmrl (len : BitVec 16) (s : State) : Host.Outcome State Fault Refusal :=
  .next (mgmtSet s fun m => { m with mrl := len.toNat })

/-- GETMWL (R369). -/
def execGetmwl (s : State) : Host.Outcome State Fault Refusal :=
  .next (cccGet s (beBytes 2 s.hub.mgmt.mwl))

/-- SETMWL (R369). -/
def execSetmwl (len : BitVec 16) (s : State) : Host.Outcome State Fault Refusal :=
  .next (mgmtSet s fun m => { m with mwl := len.toNat })

/-- ENEC (R372): event bit 0 is the in-band interrupt. -/
def execEnec (ev : Byte) (s : State) : Host.Outcome State Fault Refusal :=
  .next (mgmtSet s fun m => if ev.getLsbD 0 then { m with ibi := true } else m)

/-- DISEC (R372). -/
def execDisec (ev : Byte) (s : State) : Host.Outcome State Fault Refusal :=
  .next (mgmtSet s fun m => if ev.getLsbD 0 then { m with ibi := false } else m)

/-! ### MCTP control messages (R369, R370) -/

/-- A control message answered: type 0, the command, completion code and data. -/
def mctpAnswer (s : State) (cmd : Nat) (body : List Byte) : State :=
  if s.hub.st = .off then s else mgmtSend s ([0x00, 0x00] ++ leBytes 1 cmd ++ body)

/-- SET_ENDPOINT_ID (R370): operations set and force take an ID that may be assigned; anything else is answered as invalid data. -/
def execSetEndpointId (op : BitVec 2) (eid : Byte) (s : State) : Host.Outcome State Fault Refusal :=
  if 2 ≤ op.toNat ∨ eid = 0 ∨ eid = 0xFF then .next (mctpAnswer s 1 [0x02])
  else
    let t := mgmtSet s fun m => { m with eid := eid.toNat }
    .next (mctpAnswer t 1 [0x00, 0x00, eid, 0x00])

/-- GET_ENDPOINT_ID (R369). -/
def execGetEndpointId (s : State) : Host.Outcome State Fault Refusal :=
  .next (mctpAnswer s 2 ([0x00] ++ leBytes 1 s.hub.mgmt.eid ++ [0x00, 0x00]))

/-- GET_MCTP_VERSION_SUPPORT (R369): a type the module does not support is answered 0x80. -/
def execGetMctpVersionSupport (ty : Byte) (s : State) : Host.Outcome State Fault Refusal :=
  let vs := Config.mctpVersions ty
  if ty = 0xFF ∨ ty = 0x00 ∨ ty = 0x7F then
    .next (mctpAnswer s 4 ([0x00] ++ leBytes 1 vs.length ++ vs.flatMap fun v => beBytes 4 v.toNat))
  else .next (mctpAnswer s 4 [0x80])

/-- GET_MESSAGE_TYPE_SUPPORT (R369): one type beside control, 0x7F. -/
def execGetMessageTypeSupport (s : State) : Host.Outcome State Fault Refusal :=
  .next (mctpAnswer s 5 [0x00, 0x01, 0x7F])

/-- GET_VENDOR_MSG_SUPPORT (R369): one vendor, by enterprise number (Table 17.2). -/
def execGetVendorMsgSupport (sel : Byte) (s : State) : Host.Outcome State Fault Refusal :=
  if sel = 0 then .next (mctpAnswer s 6 ([0x00, 0xFF, 0x01] ++ beBytes 4 61873 ++ beBytes 2 Config.vendorSet.toNat))
  else .next (mctpAnswer s 6 [0x02])

end Sys2Proof.Machine
end

