-- ==== Sys2Proof/Machine/Dispatch.lean ====
section
/-! DEFINITION. Dispatch: one arm for each constructor of Instr, each a direct call of the command's meaning. -/

namespace Sys2Proof.Machine

open Sys2Proof

def exec (i : Instr) (s : State) : Host.Outcome State Fault Refusal :=
  match i with
  | .loop c lvl src gi rsv len => Sys2Proof.Machine.execLoop c lvl src gi rsv len s
  | .setc c lvl rsv cnt => Sys2Proof.Machine.execSetc c lvl rsv cnt s
  | .skip c gi sense mask rsv win => Sys2Proof.Machine.execSkip c gi sense mask rsv win s
  | .step c rsv => Sys2Proof.Machine.execStep c rsv s
  | .done c rsv => Sys2Proof.Machine.execDone c rsv s
  | .hlt c gi sense rsv reason => Sys2Proof.Machine.execHlt c gi sense rsv reason s
  | .add c rd rs1 rs2 rsv => Sys2Proof.Machine.execAdd c rd rs1 rs2 rsv s
  | .sub c rd rs1 rs2 rsv => Sys2Proof.Machine.execSub c rd rs1 rs2 rsv s
  | .mul c rd rs1 rs2 rsv => Sys2Proof.Machine.execMul c rd rs1 rs2 rsv s
  | .mulh c rd rs1 rs2 rsv => Sys2Proof.Machine.execMulh c rd rs1 rs2 rsv s
  | .mulhu c rd rs1 rs2 rsv => Sys2Proof.Machine.execMulhu c rd rs1 rs2 rsv s
  | .min c rd rs1 rs2 rsv => Sys2Proof.Machine.execMin c rd rs1 rs2 rsv s
  | .max c rd rs1 rs2 rsv => Sys2Proof.Machine.execMax c rd rs1 rs2 rsv s
  | .and c rd rs1 rs2 rsv => Sys2Proof.Machine.execAnd c rd rs1 rs2 rsv s
  | .or c rd rs1 rs2 rsv => Sys2Proof.Machine.execOr c rd rs1 rs2 rsv s
  | .xor c rd rs1 rs2 rsv => Sys2Proof.Machine.execXor c rd rs1 rs2 rsv s
  | .sll c rd rs1 rs2 rsv => Sys2Proof.Machine.execSll c rd rs1 rs2 rsv s
  | .srl c rd rs1 rs2 rsv => Sys2Proof.Machine.execSrl c rd rs1 rs2 rsv s
  | .sra c rd rs1 rs2 rsv => Sys2Proof.Machine.execSra c rd rs1 rs2 rsv s
  | .seq c rd rs1 rs2 rsv => Sys2Proof.Machine.execSeq c rd rs1 rs2 rsv s
  | .sne c rd rs1 rs2 rsv => Sys2Proof.Machine.execSne c rd rs1 rs2 rsv s
  | .slt c rd rs1 rs2 rsv => Sys2Proof.Machine.execSlt c rd rs1 rs2 rsv s
  | .sltu c rd rs1 rs2 rsv => Sys2Proof.Machine.execSltu c rd rs1 rs2 rsv s
  | .sel c rd rs1 rs2 rsv => Sys2Proof.Machine.execSel c rd rs1 rs2 rsv s
  | .clz c rd rs1 rs2 rsv => Sys2Proof.Machine.execClz c rd rs1 rs2 rsv s
  | .popc c rd rs1 rs2 rsv => Sys2Proof.Machine.execPopc c rd rs1 rs2 rsv s
  | .addi c rd rs1 imm => Sys2Proof.Machine.execAddi c rd rs1 imm s
  | .andi c rd rs1 imm => Sys2Proof.Machine.execAndi c rd rs1 imm s
  | .ori c rd rs1 imm => Sys2Proof.Machine.execOri c rd rs1 imm s
  | .xori c rd rs1 imm => Sys2Proof.Machine.execXori c rd rs1 imm s
  | .slli c rd rs1 imm => Sys2Proof.Machine.execSlli c rd rs1 imm s
  | .srli c rd rs1 imm => Sys2Proof.Machine.execSrli c rd rs1 imm s
  | .srai c rd rs1 imm => Sys2Proof.Machine.execSrai c rd rs1 imm s
  | .seqi c rd rs1 imm => Sys2Proof.Machine.execSeqi c rd rs1 imm s
  | .slti c rd rs1 imm => Sys2Proof.Machine.execSlti c rd rs1 imm s
  | .sltiu c rd rs1 imm => Sys2Proof.Machine.execSltiu c rd rs1 imm s
  | .li c rd imm => Sys2Proof.Machine.execLi c rd imm s
  | .lui c rd imm => Sys2Proof.Machine.execLui c rd imm s
  | .lw c rd base off => Sys2Proof.Machine.execLw c rd base off s
  | .lh c rd base off => Sys2Proof.Machine.execLh c rd base off s
  | .lhu c rd base off => Sys2Proof.Machine.execLhu c rd base off s
  | .lb c rd base off => Sys2Proof.Machine.execLb c rd base off s
  | .lbu c rd base off => Sys2Proof.Machine.execLbu c rd base off s
  | .sw c rd base off => Sys2Proof.Machine.execSw c rd base off s
  | .sh c rd base off => Sys2Proof.Machine.execSh c rd base off s
  | .sb c rd base off => Sys2Proof.Machine.execSb c rd base off s
  | .mte c gi addr rsv => Sys2Proof.Machine.execMte c gi addr rsv s
  | .mfe c gi addr rsv => Sys2Proof.Machine.execMfe c gi addr rsv s
  | .mtc c lvl gi rsv => Sys2Proof.Machine.execMtc c lvl gi rsv s
  | .mfl c lvl gi rsv => Sys2Proof.Machine.execMfl c lvl gi rsv s
  | .rdt c rd sel rsv => Sys2Proof.Machine.execRdt c rd sel rsv s
  | .load c ind kind reg gi addr ecc => Sys2Proof.Machine.execLoad c ind kind reg gi addr ecc s
  | .accPreload c ind reg gi addr ecc => Sys2Proof.Machine.execAccPreload c ind reg gi addr ecc s
  | .store c ind kind reg gi addr => Sys2Proof.Machine.execStore c ind kind reg gi addr s
  | .loadLanding c => Sys2Proof.Machine.execLoadLanding c s
  | .mmx c w => Sys2Proof.Machine.execMmx c w s
  | .mmxe c w => Sys2Proof.Machine.execMmxe c w s
  | .mclr c w => Sys2Proof.Machine.execMclr c w s
  | .mdrn c w => Sys2Proof.Machine.execMdrn c w s
  | .mraw c w => Sys2Proof.Machine.execMraw c w s
  | .mimg c w => Sys2Proof.Machine.execMimg c w s
  | .mchk c w => Sys2Proof.Machine.execMchk c w s
  | .accUpdate c => Sys2Proof.Machine.execAccUpdate c s
  | .checkVerdict c disturb resid => Sys2Proof.Machine.execCheckVerdict c disturb resid s
  | .drainLanding c resid => Sys2Proof.Machine.execDrainLanding c resid s
  | .ballastDummy c => Sys2Proof.Machine.execBallastDummy c s
  | .vadd c w => Sys2Proof.Machine.execVadd c w s
  | .vsub c w => Sys2Proof.Machine.execVsub c w s
  | .vmul c w => Sys2Proof.Machine.execVmul c w s
  | .vfma c w => Sys2Proof.Machine.execVfma c w s
  | .vfnma c w => Sys2Proof.Machine.execVfnma c w s
  | .vmin c w => Sys2Proof.Machine.execVmin c w s
  | .vmax c w => Sys2Proof.Machine.execVmax c w s
  | .vabs c w => Sys2Proof.Machine.execVabs c w s
  | .vneg c w => Sys2Proof.Machine.execVneg c w s
  | .vcmp c w => Sys2Proof.Machine.execVcmp c w s
  | .vsel c w => Sys2Proof.Machine.execVsel c w s
  | .vand c w => Sys2Proof.Machine.execVand c w s
  | .vor c w => Sys2Proof.Machine.execVor c w s
  | .vxor c w => Sys2Proof.Machine.execVxor c w s
  | .vsll c w => Sys2Proof.Machine.execVsll c w s
  | .vsrl c w => Sys2Proof.Machine.execVsrl c w s
  | .vsra c w => Sys2Proof.Machine.execVsra c w s
  | .vmov c w => Sys2Proof.Machine.execVmov c w s
  | .vfnExp2 c w => Sys2Proof.Machine.execVfnExp2 c w s
  | .vfnLog2 c w => Sys2Proof.Machine.execVfnLog2 c w s
  | .vfnReciprocal c w => Sys2Proof.Machine.execVfnReciprocal c w s
  | .vfnRsqrt c w => Sys2Proof.Machine.execVfnRsqrt c w s
  | .vfnTanh c w => Sys2Proof.Machine.execVfnTanh c w s
  | .vfnSigmoid c w => Sys2Proof.Machine.execVfnSigmoid c w s
  | .vfnSilu c w => Sys2Proof.Machine.execVfnSilu c w s
  | .vfnGelu c w => Sys2Proof.Machine.execVfnGelu c w s
  | .vfnSin c w => Sys2Proof.Machine.execVfnSin c w s
  | .vfnCos c w => Sys2Proof.Machine.execVfnCos c w s
  | .vrand c w => Sys2Proof.Machine.execVrand c w s
  | .vcvt c w => Sys2Proof.Machine.execVcvt c w s
  | .vbenc c w => Sys2Proof.Machine.execVbenc c w s
  | .vbpack c w => Sys2Proof.Machine.execVbpack c w s
  | .vbunpk c w => Sys2Proof.Machine.execVbunpk c w s
  | .vred c w => Sys2Proof.Machine.execVred c w s
  | .vredPrefix c w => Sys2Proof.Machine.execVredPrefix c w s
  | .vtopk c w => Sys2Proof.Machine.execVtopk c w s
  | .umom c w => Sys2Proof.Machine.execUmom c w s
  | .usgd c w => Sys2Proof.Machine.execUsgd c w s
  | .uadm1 c w => Sys2Proof.Machine.execUadm1 c w s
  | .uadm2 c w => Sys2Proof.Machine.execUadm2 c w s
  | .uadp c w => Sys2Proof.Machine.execUadp c w s
  | .ukst c w => Sys2Proof.Machine.execUkst c w s
  | .ukns c w => Sys2Proof.Machine.execUkns c w s
  | .ukap c w => Sys2Proof.Machine.execUkap c w s
  | .vResultLanding c bad => Sys2Proof.Machine.execVResultLanding c bad s
  | .sget c ring gi greg disp mem => Sys2Proof.Machine.execSget c ring gi greg disp mem s
  | .sput c ring gi greg disp => Sys2Proof.Machine.execSput c ring gi greg disp s
  | .sdue c ring gi greg disp => Sys2Proof.Machine.execSdue c ring gi greg disp s
  | .srel c ring gi greg disp => Sys2Proof.Machine.execSrel c ring gi greg disp s
  | .sdrain c ring gi greg disp => Sys2Proof.Machine.execSdrain c ring gi greg disp s
  | .fillBeat c => Sys2Proof.Machine.execFillBeat c s
  | .egressBeat c ecc => Sys2Proof.Machine.execEgressBeat c ecc s
  | .sputComplete c => Sys2Proof.Machine.execSputComplete c s
  | .sidingEntry ch => Sys2Proof.Machine.execSidingEntry ch s
  | .remoteRead c ecc => Sys2Proof.Machine.execRemoteRead c ecc s
  | .remoteRingCheck c => Sys2Proof.Machine.execRemoteRingCheck c s
  | .memberSrelArrival c => Sys2Proof.Machine.execMemberSrelArrival c s
  | .segmentStateTimeout c => Sys2Proof.Machine.execSegmentStateTimeout c s
  | .send c conn src lo => Sys2Proof.Machine.execSend c conn src lo s
  | .recv c qn dst vd rsv unit => Sys2Proof.Machine.execRecv c qn dst vd rsv unit s
  | .xSel c mask pol dst vd gi rsv => Sys2Proof.Machine.execXSel c mask pol dst vd gi rsv s
  | .wait c obj gi mode rsv => Sys2Proof.Machine.execWait c obj gi mode rsv s
  | .signal c obj inc => Sys2Proof.Machine.execSignal c obj inc s
  | .couple c conn rsv => Sys2Proof.Machine.execCouple c conn rsv s
  | .uncouple c conn rsv => Sys2Proof.Machine.execUncouple c conn rsv s
  | .xHeadRelease c => Sys2Proof.Machine.execXHeadRelease c s
  | .messageArrival c => Sys2Proof.Machine.execMessageArrival c s
  | .coupleMarkerArrival c => Sys2Proof.Machine.execCoupleMarkerArrival c s
  | .uncoupleMarkerArrival c => Sys2Proof.Machine.execUncoupleMarkerArrival c s
  | .refusalArrival c => Sys2Proof.Machine.execRefusalArrival c s
  | .hopperContribution c corrupt => Sys2Proof.Machine.execHopperContribution c corrupt s
  | .hopperFold c => Sys2Proof.Machine.execHopperFold c s
  | .signalArrival ch obj => Sys2Proof.Machine.execSignalArrival ch obj s
  | .waitTest ch obj => Sys2Proof.Machine.execWaitTest ch obj s
  | .waitReleaseArrival c => Sys2Proof.Machine.execWaitReleaseArrival c s
  | .signalFrame ch obj inc jb => Sys2Proof.Machine.execSignalFrame ch obj inc jb s
  | .taskEnd c => Sys2Proof.Machine.execTaskEnd c s
  | .brakeEnd ch => Sys2Proof.Machine.execBrakeEnd ch s
  | .brakeLimit ch => Sys2Proof.Machine.execBrakeLimit ch s
  | .throttleBrake ch => Sys2Proof.Machine.execThrottleBrake ch s
  | .droopStretch ch region periods permille => Sys2Proof.Machine.execDroopStretch ch region periods permille s
  | .oppointSwitch ch => Sys2Proof.Machine.execOppointSwitch ch s
  | .timeFlitSend ch p => Sys2Proof.Machine.execTimeFlitSend ch p s
  | .timeStampReceipt ch p stamp rx stratum => Sys2Proof.Machine.execTimeStampReceipt ch p stamp rx stratum s
  | .linkDelayMeasurement ch p => Sys2Proof.Machine.execLinkDelayMeasurement ch p s
  | .echoReq ch p t1 t2 => Sys2Proof.Machine.execEchoReq ch p t1 t2 s
  | .echoRsp ch p t1 t2 t3 t4 => Sys2Proof.Machine.execEchoRsp ch p t1 t2 t3 t4 s
  | .ftSourceLost ch => Sys2Proof.Machine.execFtSourceLost ch s
  | .launchRelease ch j => Sys2Proof.Machine.execLaunchRelease ch j s
  | .barrierStart j => Sys2Proof.Machine.execBarrierStart j s
  | .stepClear ch j => Sys2Proof.Machine.execStepClear ch j s
  | .lctlClear ch k => Sys2Proof.Machine.execLctlClear ch k s
  | .lctlCommit ch k => Sys2Proof.Machine.execLctlCommit ch k s
  | .commitComplete ch j => Sys2Proof.Machine.execCommitComplete ch j s
  | .lctlRevoke ch k => Sys2Proof.Machine.execLctlRevoke ch k s
  | .revokeDrainComplete ch j => Sys2Proof.Machine.execRevokeDrainComplete ch j s
  | .shuntCopyComplete ch cl => Sys2Proof.Machine.execShuntCopyComplete ch cl s
  | .lctlBarrier ch k => Sys2Proof.Machine.execLctlBarrier ch k s
  | .lack ch id => Sys2Proof.Machine.execLack ch id s
  | .lctlResendTimeout ch id => Sys2Proof.Machine.execLctlResendTimeout ch id s
  | .seizeFenceDrained ch => Sys2Proof.Machine.execSeizeFenceDrained ch s
  | .flitReceipt ch p bytes => Sys2Proof.Machine.execFlitReceipt ch p bytes s
  | .rdreq ch ecc k => Sys2Proof.Machine.execRdreq ch ecc k s
  | .rddata ch k => Sys2Proof.Machine.execRddata ch k s
  | .pktWrite ch k => Sys2Proof.Machine.execPktWrite ch k s
  | .wrdone ch k => Sys2Proof.Machine.execWrdone ch k s
  | .fault ch k => Sys2Proof.Machine.execFault ch k s
  | .reach ch p k => Sys2Proof.Machine.execReach ch p k s
  | .gddr7Refresh ch => Sys2Proof.Machine.execGddr7Refresh ch s
  | .selfRefreshEntry ch => Sys2Proof.Machine.execSelfRefreshEntry ch s
  | .cxlLinkDown ch => Sys2Proof.Machine.execCxlLinkDown ch s
  | .cxlBringupComplete ch width rate cap fits => Sys2Proof.Machine.execCxlBringupComplete ch width rate cap fits s
  | .portSignalDetect ch p => Sys2Proof.Machine.execPortSignalDetect ch p s
  | .portTrainingComplete ch p peer delay flight stratum => Sys2Proof.Machine.execPortTrainingComplete ch p peer delay flight stratum s
  | .portTrainingTimeout ch p => Sys2Proof.Machine.execPortTrainingTimeout ch p s
  | .portLinkLoss ch p => Sys2Proof.Machine.execPortLinkLoss ch p s
  | .portAckTimeout ch p => Sys2Proof.Machine.execPortAckTimeout ch p s
  | .portShutdownComplete ch p => Sys2Proof.Machine.execPortShutdownComplete ch p s
  | .lnkEnable q ch p => Sys2Proof.Machine.execLnkEnable q ch p s
  | .lnkDisable q ch p => Sys2Proof.Machine.execLnkDisable q ch p s
  | .lnkRouteData q ch bytes => Sys2Proof.Machine.execLnkRouteData q ch bytes s
  | .ahnFrameReceipt l bytes => Sys2Proof.Machine.execAhnFrameReceipt l bytes s
  | .ahnResendTimeout l => Sys2Proof.Machine.execAhnResendTimeout l s
  | .ahnLightDetect l => Sys2Proof.Machine.execAhnLightDetect l s
  | .ahnTrainingComplete l => Sys2Proof.Machine.execAhnTrainingComplete l s
  | .ahnTrainingTimeout l => Sys2Proof.Machine.execAhnTrainingTimeout l s
  | .ahnLinkLoss l => Sys2Proof.Machine.execAhnLinkLoss l s
  | .ahnShutdownComplete l => Sys2Proof.Machine.execAhnShutdownComplete l s
  | .ahnEnable q l => Sys2Proof.Machine.execAhnEnable q l s
  | .ahnDisable q l => Sys2Proof.Machine.execAhnDisable q l s
  | .ahnClassGap l cls => Sys2Proof.Machine.execAhnClassGap l cls s
  | .cartridgeLinkTimeout b => Sys2Proof.Machine.execCartridgeLinkTimeout b s
  | .eventFrameSend => Sys2Proof.Machine.execEventFrameSend s
  | .manifest j off bytes => Sys2Proof.Machine.execManifest j off bytes s
  | .sectionBytes j sec off bytes => Sys2Proof.Machine.execSectionBytes j sec off bytes s
  | .chunk j mask sec num bytes => Sys2Proof.Machine.execChunk j mask sec num bytes s
  | .dataWrite ch jb addr bytes cseq => Sys2Proof.Machine.execDataWrite ch jb addr bytes cseq s
  | .dataRead ch jb addr len cseq => Sys2Proof.Machine.execDataRead ch jb addr len cseq s
  | .msgIn c jb qn bytes cseq => Sys2Proof.Machine.execMsgIn c jb qn bytes cseq s
  | .dictRead q idx sub => Sys2Proof.Machine.execDictRead q idx sub s
  | .dictWrite q idx sub bytes => Sys2Proof.Machine.execDictWrite q idx sub bytes s
  | .quoteReq q nonce mask => Sys2Proof.Machine.execQuoteReq q nonce mask s
  | .syncGrantApply q ch v => Sys2Proof.Machine.execSyncGrantApply q ch v s
  | .syncDumpTake q ch v => Sys2Proof.Machine.execSyncDumpTake q ch v s
  | .chOppointAt q ch at_ => Sys2Proof.Machine.execChOppointAt q ch at_ s
  | .famRegionWrite q ch n bytes => Sys2Proof.Machine.execFamRegionWrite q ch n bytes s
  | .famWinData q ch bytes => Sys2Proof.Machine.execFamWinData q ch bytes s
  | .jobPlace q j bytes => Sys2Proof.Machine.execJobPlace q j bytes s
  | .jobOpen q j v => Sys2Proof.Machine.execJobOpen q j v s
  | .jobSeed q j val => Sys2Proof.Machine.execJobSeed q j val s
  | .jobLaunch q j count => Sys2Proof.Machine.execJobLaunch q j count s
  | .jobBarrier q j v => Sys2Proof.Machine.execJobBarrier q j v s
  | .jobRelease q j v => Sys2Proof.Machine.execJobRelease q j v s
  | .chkRevokeGo q ch v => Sys2Proof.Machine.execChkRevokeGo q ch v s
  | .chkPosRestore q ch v => Sys2Proof.Machine.execChkPosRestore q ch v s
  | .chkSeizePos q ch v => Sys2Proof.Machine.execChkSeizePos q ch v s
  | .chkInspArm q ch v => Sys2Proof.Machine.execChkInspArm q ch v s
  | .inspectionWindowStart ch => Sys2Proof.Machine.execInspectionWindowStart ch s
  | .patternResult ch bytes => Sys2Proof.Machine.execPatternResult ch bytes s
  | .inspectionWindowClose ch => Sys2Proof.Machine.execInspectionWindowClose ch s
  | .tpkVerify q v => Sys2Proof.Machine.execTpkVerify q v s
  | .cwHaltCmd q ch v => Sys2Proof.Machine.execCwHaltCmd q ch v s
  | .chIsolate q ch => Sys2Proof.Machine.execChIsolate q ch s
  | .chReload q ch => Sys2Proof.Machine.execChReload q ch s
  | .chReset q ch => Sys2Proof.Machine.execChReset q ch s
  | .chServe q ch => Sys2Proof.Machine.execChServe q ch s
  | .chTransitionComplete ch => Sys2Proof.Machine.execChTransitionComplete ch s
  | .modStandbyRequest q => Sys2Proof.Machine.execModStandbyRequest q s
  | .modReadyRequest q => Sys2Proof.Machine.execModReadyRequest q s
  | .modHubReset q v => Sys2Proof.Machine.execModHubReset q v s
  | .auxPowerUp pos => Sys2Proof.Machine.execAuxPowerUp pos s
  | .auxPowerLoss => Sys2Proof.Machine.execAuxPowerLoss s
  | .mainInputLoss => Sys2Proof.Machine.execMainInputLoss s
  | .throttleEvaluation r => Sys2Proof.Machine.execThrottleEvaluation r s
  | .mgtProgGo q v => Sys2Proof.Machine.execMgtProgGo q v s
  | .secOwnerKey q n key sig => Sys2Proof.Machine.execSecOwnerKey q n key sig s
  | .jnlSealNow q v => Sys2Proof.Machine.execJnlSealNow q v s
  | .segmentTimeLimit => Sys2Proof.Machine.execSegmentTimeLimit s
  | .bayEject q b v => Sys2Proof.Machine.execBayEject q b v s
  | .cartridgeInserted b => Sys2Proof.Machine.execCartridgeInserted b s
  | .cartridgeRemoved b => Sys2Proof.Machine.execCartridgeRemoved b s
  | .appendResponse b tag status => Sys2Proof.Machine.execAppendResponse b tag status s
  | .cartridgeResponse b tag status bytes => Sys2Proof.Machine.execCartridgeResponse b tag status bytes s
  | .dictReq bytes => Sys2Proof.Machine.execDictReq bytes s
  | .eventFetch bytes => Sys2Proof.Machine.execEventFetch bytes s
  | .entdaa addr => Sys2Proof.Machine.execEntdaa addr s
  | .setdasa static addr => Sys2Proof.Machine.execSetdasa static addr s
  | .rstdaa => Sys2Proof.Machine.execRstdaa s
  | .getpid => Sys2Proof.Machine.execGetpid s
  | .getbcr => Sys2Proof.Machine.execGetbcr s
  | .getdcr => Sys2Proof.Machine.execGetdcr s
  | .getstatus => Sys2Proof.Machine.execGetstatus s
  | .getmrl => Sys2Proof.Machine.execGetmrl s
  | .setmrl len => Sys2Proof.Machine.execSetmrl len s
  | .getmwl => Sys2Proof.Machine.execGetmwl s
  | .setmwl len => Sys2Proof.Machine.execSetmwl len s
  | .enec ev => Sys2Proof.Machine.execEnec ev s
  | .disec ev => Sys2Proof.Machine.execDisec ev s
  | .setEndpointId op eid => Sys2Proof.Machine.execSetEndpointId op eid s
  | .getEndpointId => Sys2Proof.Machine.execGetEndpointId s
  | .getMctpVersionSupport ty => Sys2Proof.Machine.execGetMctpVersionSupport ty s
  | .getMessageTypeSupport => Sys2Proof.Machine.execGetMessageTypeSupport s
  | .getVendorMsgSupport sel => Sys2Proof.Machine.execGetVendorMsgSupport sel s
  | .modTransitionComplete => Sys2Proof.Machine.execModTransitionComplete s
  | .syncWatchArm q ch n v => Sys2Proof.Machine.execSyncWatchArm q ch n v s
  | .singleBayWarning => Sys2Proof.Machine.execSingleBayWarning s
  | .noAnswerTimeout => Sys2Proof.Machine.execNoAnswerTimeout s

end Sys2Proof.Machine
end

