-- ==== Sys2Proof/Machine/Tick.lean ====
section
/-! DEFINITION. Tick: what happens while no command waits: one tick of Fabric Time (DESIGN CHOICE: assumption log, 1). The clocks advance; at a
channel's cycle boundary its cores fetch and issue their row words (R24-R36, R48, R50-R52); and what the tables time becomes the
commands that wait next, in the order in which a cycle performs them. -/

namespace Sys2Proof.Machine

/-- The state a command leaves; one that stopped would leave the state as it is. -/
def run (i : Instr) (s : State) : State :=
  match exec i s with
  | .next t => t
  | .fault _ => s
  | .refused _ => s

/-! ### Row words (R24, R25, R35, R51) -/

/-- An open skip window squashes a slot, 1 (C) to 6 (X); the P slot never (R35). -/
def squashed (k : Core) (slot : Nat) : Bool :=
  decide (slot ≠ 0) && k.skips.any fun w => w.mask.getLsbD (6 - slot)

/-- What the slots of the row word at the ring address spell, a squashed slot as a no-op; no slot where no row word stands there. -/
def rowReads (c : CoreId) (k : Core) : List SlotRead :=
  match tabFind k.ring k.pc with
  | none => []
  | some w => (decodeRow c w).mapIdx fun i r => if squashed k i then .ok none else r

/-- The condition one slot finds at issue. -/
def readFault (s : State) (c : CoreId) (k : Core) (now : Nat) (r : SlotRead) : Option Nat :=
  match r with
  | .error e => some e
  | .ok none => none
  | .ok (some i) => slotFault s c k now i

/-- The first condition that a row word finds at issue, with its slot (R51); a fetch where no row word stands halts with 0x13. -/
def rowFault (s : State) (c : CoreId) (k : Core) (now : Nat) (rs : List SlotRead) : Option (Nat × Nat) :=
  match rs with
  | [] => some (0, 0x13)
  | p :: l => match readFault s c k now p with
    | some e => some (0, e)
    | none =>
      if bothSet p (l.headD (.ok none)) then some (0, 0x0D)
      else (l.zipIdx 1).findSome? fun e => (readFault s c k now e.1).map fun r => (e.2, r)

/-- The instructions of a row word, in slot order. -/
def rowInstrs (rs : List SlotRead) : List Instr :=
  rs.filterMap fun r => match r with
    | .ok (some i) => some i
    | _ => none

/-- The step instruction of a row word. -/
def rowStep (rs : List SlotRead) : Option Instr :=
  match rs with
  | .ok (some (.step c r)) :: _ => some (.step c r)
  | _ => none

/-- A row word whose P slot chooses the next ring address itself (R31, R36). -/
def rowSteers (rs : List SlotRead) : Bool :=
  match rs with
  | .ok (some (.loop _ _ _ _ _ _)) :: _ => true
  | .ok (some (.step _ _)) :: _ => true
  | _ => false

/-- The X queue's turn in a row word's cycle: the X slot's instruction enters and may execute, or the head may (R48). -/
def rowX (c : CoreId) (rs : List SlotRead) (s : State) : State :=
  match rs.getD 6 (.ok none) with
  | .ok (some i) => run i s
  | _ => xRunOnce s c

/-- A core halts in its row word's cycle: the condition found at issue, or an earlier slot's that arrived in the same cycle (R51). -/
def rowHalt (s : State) (c : CoreId) (k : Core) (slot reason : Nat) : State :=
  let r : HaltRec := ⟨k.sched, reason, false, slot, k.pc⟩
  haltCore s c (match (getCore s c).pendHalt with
    | some p => earlierHalt (some r) p
    | none => r)

/-- The skip windows after a row word: those open at its start are one word shorter; one it opened is whole (R35). -/
def windowsAfter (was : List Skip) (now : List Skip) : List Skip :=
  (was.filterMap fun w => if w.left ≤ 1 then none else some { w with left := w.left - 1 }) ++ now.drop was.length

/-- The instructions of a row word that are not its step. -/
def rowRest (rs : List SlotRead) : List Instr :=
  (rowInstrs rs).filter fun i => match i with
    | .step _ _ => false
    | _ => true

/-- A row word without a condition issues: its instructions, the X queue's head, the windows, the task's cycle count, the step, the next
ring address (R26, R34-R36, R48). -/
def rowIssue (s : State) (c : CoreId) (k : Core) (rs : List SlotRead) : State :=
  let s := (rowRest rs).foldl (fun s i => run i s) s
  let s := match rs.getD 6 (.ok none) with
    | .ok (some _) => s
    | _ => xRunOnce s c
  let s := updCore s c fun x => { x with skips := windowsAfter k.skips x.skips, sched := x.sched + 1 }
  match rowStep rs with
  | some i => run i s
  | none => if rowSteers rs then s else updCore s c seqNext

/-- One row word of a running core, the core as it stood at the start of the cycle. Where it halts at issue, the head of the X queue does
not execute in that cycle (DESIGN CHOICE: assumption log, 97); where the step found the queue not empty, the head has executed. -/
def coreRow (ch : Nat) (s : State) (n : Nat) (k : Core) : State :=
  let c := mkCore ch n
  let rs := rowReads c k
  let s := { s with rowStart := some (c, k) }
  let s := match rowFault s c k (getCh s ch).sched rs with
    | some (slot, e) => rowHalt s c k slot e
    | none =>
      if (rowStep rs).isSome ∧ (getCore (rowX c rs s) c).xq ≠ [] then rowHalt (xRunOnce s c) c k 0 0x65
      else rowIssue s c k rs
  { s with rowStart := none }

/-- The cycle of a task whose done row has issued: its X queue goes on (R38). -/
def coreDone (ch : Nat) (s : State) (n : Nat) : State :=
  updCore (xRunOnce s (mkCore ch n)) (mkCore ch n) fun x => { x with sched := x.sched + 1 }

/-- One core's part in a schedule cycle. -/
def coreCycle (ch : Nat) (s : State) (e : Nat × Core) : State :=
  match e.2.status with
  | .running => coreRow ch s e.1 e.2
  | .done => coreDone ch s e.1
  | _ => s

/-! ### Channel cycles (R26, R228, R229) -/

/-- The engine writes of a core performed (R135), looked at first by the hazard detector (R247). -/
def coreWrites (ch : Nat) (s : State) (n : Nat) : State :=
  updCore (writeHazards s (mkCore ch n)) (mkCore ch n) flushStores

/-- A late halt takes effect at the row-word boundary (R51). -/
def boundaryHalt (ch : Nat) (s : State) (n : Nat) : State :=
  match (getCore s (mkCore ch n)).pendHalt with
  | some r => haltCore s (mkCore ch n) r
  | none => s

/-- The pin point of a running core taken anew (R242). -/
def boundaryPin (ch : Nat) (s : State) (n : Nat) : State :=
  if (getCore s (mkCore ch n)).status = .running then updatePin s ch n else s

/-- One schedule cycle of a channel. -/
def scheduleCycle (s : State) (ch : Nat) : State :=
  let ns := (getCh s ch).cores.map (·.1)
  let s := ns.foldl (fun s n => xFinish s (mkCore ch n)) (ns.foldl (coreWrites ch) s)
  let s := (getCh s ch).cores.foldl (coreCycle ch) s
  let s := ns.foldl (boundaryPin ch) (ns.foldl (boundaryHalt ch) s)
  updCh s ch fun k => { k with sched := k.sched + 1, brake := { k.brake with gapCnt := k.brake.gapCnt + 1 } }

/-- A core at the end of a channel cycle, `now` the schedule cycle to come: flags set in it may now be cleared (R99), the loads issued in
the last schedule cycle see what it wrote (R46), and its egress queue has moved one beat on unless the network takes none (R147). -/
def coreEnd (now : Nat) (stalls : Bool) (c : Core) : Core :=
  { c with
    lPipe := c.lPipe.map (readLoad now c)
    ecr := tabDel (tabDel (tabDel c.ecr (freshKey 0x100)) (freshKey 0x200)) (freshKey 0x3C8)
    egQueue := if c.egQueue = 0 ∨ stalls then c.egQueue else c.egQueue - 256 }

/-- One cycle of a Serving channel: braked, or a schedule cycle. -/
def channelCycle (s : State) (ch : Nat) : State :=
  let s := if brakeNow (getCh s ch) then brakedCycle s ch else scheduleCycle s ch
  updCh s ch fun k => { k with cores := tabMap k.cores fun n c => coreEnd k.sched (Config.egressStalls ch n k.cycles) c }

/-! ### Clocks (R220, R223, R224) -/

/-- Fabric Time after a tick: 1, or 2 or 0 once in 1,024 ticks while it is slewed (R224). -/
def ftStep (time : Nat) (k : Channel) : Nat :=
  if time % 1024 ≠ 0 ∨ k.slew = 0 then 1 else if 0 < k.slew then 2 else 0

/-- The length of the channel's present period in units of its clock: 1,000, stretched by so many permille (R220). -/
def periodOf (k : Channel) : Nat :=
  1000 + k.stretch.headD 0

/-- A Serving channel's clock after a tick, and whether a cycle boundary fell in it; FT_NOW is read as at the last boundary (R223). -/
def clockStep (k : Channel) : Channel × Bool :=
  if k.st ≠ .serving then ({ k with ftEnd := k.ft }, false)
  else if k.phase + k.mhz < periodOf k then ({ k with phase := k.phase + k.mhz }, false)
  else ({ k with phase := k.phase + k.mhz - periodOf k, stretch := k.stretch.tail, ftEnd := k.ft }, true)

/-- One tick of a channel that the module powers: its Fabric Time and its clock, a stretched period counted as it ends (R220), an
adjustment of the count as it is made (R224); the channels that come to a boundary are collected. -/
def tickChannel (r : State × List Nat) (ch : Nat) : State × List Nat :=
  match tabFind r.1.ch ch with
  | none => r
  | some k =>
    let x := clockStep { k with ft := k.ft + ftStep r.1.hub.time k }
    let s := if x.2 ∧ k.stretch ≠ [] then dAdd r.1 (cIdx ch 0x100) 7 64 1 else r.1
    let s := if ftStep r.1.hub.time k = 1 then s else dSat s (cIdx ch 0x103) 5 1
    (updCh s ch fun _ => x.1, if x.2 then r.2 ++ [ch] else r.2)

/-- The cycle of a channel whose boundary has come, if it is Serving still: first, homes that are no longer reached are given up (R210). -/
def turnChannel (s : State) (ch : Nat) : State :=
  if (getCh s ch).st = .serving then channelCycle (staleReads (staleWrites s ch) ch) ch else s

/-- A channel's cycle count after the cycles of a tick, so that what one channel sends another counts the same cycle of the receiver
whichever has its turn first (R8, R20). -/
def nextCycle (s : State) (ch : Nat) : State :=
  if (getCh s ch).st = .serving then updCh s ch fun k => { k with cycles := k.cycles + 1 } else s

/-! ### What a cycle's happenings are (Tables 2.10, 4.4, 5.4, 6.1) -/

/-- A channel by number. -/
def chId (ch : Nat) : ChId :=
  BitVec.ofNat 2 ch

/-- A command where its time has come. -/
def when_ (b : Bool) (i : Instr) : List Instr :=
  if b then [i] else []

/-- The cores that remote reads reach in a cycle, whether or not the channel lists them (R148). -/
def sourcesDue (k : Channel) (now : Nat) : List Nat :=
  ((k.remotes.filter fun f => decide (f.at_ ≤ now)).map (·.source)).dedup

/-- What a core's egress port, checks and landings do in a cycle, `now` the schedule cycle. -/
def coreDue (k : Channel) (now : Nat) (c : CoreId) (x : Core) : List Instr :=
  let n := inCh c
  when_ (x.egress.any fun e => decide (e.next ≤ now)) (.egressBeat c .clean) ++
  when_ (remoteChecks now x != []) (.remoteRingCheck c) ++
  when_ (x.lPipe.any fun i => decide (i.due ≤ now)) (.loadLanding c) ++
  when_ (x.vPipe.any fun i => decide (i.due ≤ now)) (.vResultLanding c false) ++
  when_ (x.drains.any fun i => decide (i.due ≤ now)) (.drainLanding c ⟨0, 0⟩) ++
  when_ (x.mPipe.any fun i => decide (i.due ≤ now)) (.accUpdate c) ++
  when_ (x.verdicts.any fun v => decide (v.due ≤ k.cycles)) (.checkVerdict c 0 ⟨0, 0⟩) ++
  when_ (x.segs.any fun g => decide (g.2.till < now) && g.2.st != .on && g.2.st != .off) (.segmentStateTimeout c) ++
  when_ (k.srels.any fun f => f.lead == n && decide (f.due ≤ now)) (.memberSrelArrival c) ++
  when_ (nextBeat k x).isSome (.fillBeat c) ++
  when_ (x.putFly.any fun p => !p.dur && decide (p.due ≤ k.cycles)) (.sputComplete c)

/-- What reaches a core's receive store in a cycle (R155-R160, R166-R168): COUPLE markers, then data messages, then UNCOUPLE markers (DESIGN
CHOICE: assumption log, 107). -/
def arrivalsDue (k : Channel) (c : CoreId) (x : Core) : List Instr :=
  let n := inCh c
  when_ (dueAt k n (fun m => m.type == 1) != []) (.coupleMarkerArrival c) ++
  when_ (dueAt k n (fun m => m.type == 0 && !isHopper x m.queue) != []) (.messageArrival c) ++
  when_ (dueAt k n (fun m => m.type == 0 && isHopper x m.queue) != []) (.hopperContribution c 0) ++
  when_ (dueAt k n (fun m => m.type == 2) != []) (.uncoupleMarkerArrival c) ++
  when_ (dueAt k n (fun m => m.type == 3 || m.type == 4) != []) (.refusalArrival c) ++
  when_ (x.queues.any fun q => q.2.slots.any fun h => h.2.wait.any fun w => decide (w.entered < k.cycles)) (.hopperFold c)

/-- The cores a channel's messages go to: a message reaches a core whether or not the channel lists it. -/
def storeCores (k : Channel) : List Nat :=
  (k.cores.map (·.1) ++ k.msgFly.map fun f => inCh (addrCore f.msg.dst)).dedup

/-- The objects at whose home something happens in a cycle, braked or not (R173, R174, R230). -/
def homesDue (s : State) (ch : Nat) (braked : Bool) : List Nat :=
  let k := getCh s ch
  ((k.syncFly.filter fun f => f.kind != .free && decide (f.due ≤ k.cycles)).map (·.obj) ++
    (if braked then [] else k.frames.map (·.1)) ++ k.waits.map (·.obj) ++
    ((List.range 32).filter fun w => decide (cGet s ch (0x510 + w) 3 = 1)).map fun w => cGet s ch (0x510 + w) 1).dedup

/-- A home's cycle, as the row of the table that names it: the arrival of a signal, or the test of its waits and watches. -/
def homeCommand (k : Channel) (ch n : Nat) : Instr :=
  if (k.syncFly.any fun f => f.obj == n && f.kind.isSignal && decide (f.due ≤ k.cycles)) then .signalArrival (chId ch) (BitVec.ofNat 12 n)
  else .waitTest (chId ch) (BitVec.ofNat 12 n)

/-- A launch, a late chunk or a replay may release cores of a job (R226, R244, R265). -/
def launchDue (s : State) (ch j : Nat) : Bool :=
  let k := getCh s ch
  let v := jobOf k j
  v.placed && match v.revoke with
    | some r => decide (r.time ≤ k.ft) && (decide (r.phase = .holding) || (!v.missed && decide (r.phase = .draining ∨ r.phase = .shunting)))
    | none =>
      ((jobCores k j).any fun m => (coreOf k m).toLaunch == v.step && v.step.isSome && (coreOf k m).status == .holding &&
          windowLoaded (coreOf k m)) ||
        match launchNext s ch j with
        | some (m, t) => decide (t ≤ k.ft) && (launchReady s ch j m || !v.missed)
        | none => false

/-- The oldest commit of a job may go on: it completes, or its first siding entry can leave (R259). -/
def commitDue (s : State) (ch j : Nat) : Bool :=
  match (jobOf (getCh s ch) j).commits with
  | [] => false
  | c :: _ => commitReady s ch j c || (match sidingOf (getCh s ch) j c.step with
    | [] => false
    | x :: _ => canLeave s ch x)

/-- What a job of a channel comes to in a cycle. -/
def jobDue (s : State) (ch j : Nat) : List Instr :=
  let slot : JobSlot := BitVec.ofNat 6 j
  when_ (launchDue s ch j) (.launchRelease (chId ch) slot) ++
  when_ (clearReady (getCh s ch) j).isSome (.stepClear (chId ch) slot) ++
  when_ (commitDue s ch j) (.commitComplete (chId ch) slot) ++
  when_ ((((jobOf (getCh s ch) j).revoke.map (·.phase)) == some .draining) && jobDrained s ch j) (.revokeDrainComplete (chId ch) slot)

/-- What happens in the cycle of a channel that comes next, in the order in which the cycle performs it. -/
def cycleDue (s : State) (ch : Nat) : List Instr :=
  let k := getCh s ch
  let hit := throttleDue s ch
  let ends := brakeEnds k && !hit
  let braked := hit || (brakeNow k && !ends)
  let now := if braked then k.sched - 1 else k.sched
  let cores := k.cores
  let jobs := k.jobs.map (·.1)
  when_ (brakeNow k && decide (k.brake.len ≠ 0) && decide (k.brake.len = cGet s ch 0x101 4)) (.brakeLimit (chId ch)) ++
  when_ hit (.throttleBrake (chId ch)) ++
  when_ ends (.brakeEnd (chId ch)) ++
  ((sourcesDue k now).map fun n => .remoteRead (mkCore ch n) .clean) ++
  (cores.flatMap fun e => coreDue k now (mkCore ch e.1) e.2) ++
  when_ (cores.any fun e => e.2.putFly.any fun p => p.dur && decide (p.due ≤ k.cycles)) (.sidingEntry (chId ch)) ++
  ((storeCores k).flatMap fun n => arrivalsDue k (mkCore ch n) (coreOf k n)) ++
  ((homesDue s ch braked).map (homeCommand k ch)) ++
  (((k.syncFly.filter fun f => f.kind == .free && decide (f.due ≤ k.cycles)).map (·.core)).dedup.map fun n => .waitReleaseArrival (mkCore ch n)) ++
  (jobs.flatMap (jobDue s ch)) ++
  (((List.range 8).filter fun cl => (shuntIn k cl).isSome).map fun cl => .shuntCopyComplete (chId ch) (BitVec.ofNat 3 cl)) ++
  when_ k.seize.isSome (.seizeFenceDrained (chId ch)) ++
  ((cores.filter fun e => e.2.status == .done && coreQuiet k e.1 e.2).map fun e => .taskEnd (mkCore ch e.1)) ++
  when_ (k.oppReq.any fun o => decide (o.2 ≤ k.ft)) (.oppointSwitch (chId ch))

/-! ### What a time's passing brings -/

/-- What a port comes to (R310, R317, R318, Table 14.9). -/
def portDue (time : Nat) (ch : Nat) (stamps echoes : Bool) (e : Nat × LinkPort) : List Instr :=
  let lp := e.2
  let p : BitVec 3 := BitVec.ofNat 3 e.1
  let up := decide (lp.st = .up)
  when_ (up && stamps) (.timeFlitSend (chId ch) p) ++
  when_ (up && echoes) (.linkDelayMeasurement (chId ch) p) ++
  when_ (up && lp.replay != [] && decide (lp.lastAck + 10000 ≤ time)) (.portAckTimeout (chId ch) p) ++
  when_ (decide (lp.st = .training) && decide (lp.since + 2000000 ≤ time)) (.portTrainingTimeout (chId ch) p) ++
  when_ ((decide (lp.st = .shutdown) || decide (lp.st = .restarting)) && (lp.replay == [] || decide (lp.since + 10000 ≤ time)))
    (.portShutdownComplete (chId ch) p)

/-- The time a channel's transition takes (Table 18.3; DESIGN CHOICE: assumption log, 17). -/
def transitionTime (k : Channel) : Nat :=
  match k.st with
  | .resetting => 30000000
  | .reloading => 5000000
  | .serving => 2000000
  | .isolated => 3000000

/-- What a channel comes to by time alone. -/
def channelDue (s : State) (ch : Nat) : List Instr :=
  let k := getCh s ch
  let time := s.hub.time
  let was := k.ft - ftStep time k
  let marks := fun n => decide (was / n ≠ k.ft / n)
  (k.ports.flatMap (portDue time ch (marks 1024) (marks 1048576))) ++
  when_ (k.source.any fun p => !portIsUp k p || !(ftPick s ch).isSome) (.ftSourceLost (chId ch)) ++
  ((k.lctls.filter fun l => decide (l.sent + 4000 ≤ time)).map fun l => .lctlResendTimeout (chId ch) (BitVec.ofNat 16 l.id)) ++
  when_ (k.insps.any fun w => !w.open_ && decide (w.start ≤ k.ft)) (.inspectionWindowStart (chId ch)) ++
  when_ (k.insps.any fun w => w.open_ && decide (w.stop ≤ k.ft)) (.inspectionWindowClose (chId ch)) ++
  when_ ((decide (k.st = .isolated) || decide (k.st = .reloading)) && !k.selfRef && decide (k.refIdle + 10000 ≤ time)) (.selfRefreshEntry (chId ch)) ++
  when_ (inTransition k && decide (k.transAt + transitionTime k ≤ time)) (.chTransitionComplete (chId ch))

/-- What an Ahnec link comes to (Table 15.1, R335). -/
def ahnDue (time : Nat) (e : Nat × Ahn) : List Instr :=
  let a := e.2
  let l : BitVec 1 := BitVec.ofNat 1 e.1
  let waits := decide (a.st = .up) && a.replay != []
  when_ (decide (a.st = .training) && decide (a.since + 1000000 ≤ time)) (.ahnTrainingTimeout l) ++
  when_ (waits && decide (a.progAt + 1000000 ≤ time)) (.ahnLinkLoss l) ++
  when_ (waits && decide (time < a.progAt + 1000000) && decide (a.lastAck + 50000 ≤ time)) (.ahnResendTimeout l) ++
  when_ ((decide (a.st = .shutdown) || decide (a.st = .restarting)) && (a.replay == [] || decide (a.since + 100000 ≤ time))) (.ahnShutdownComplete l)

/-- The class gaps that have lasted 10 ms (R337). -/
def gapsDue (h : Hub) : List Instr :=
  (h.gapAt.filter fun g => decide (g.2 + 10000000 ≤ h.time)).map fun g =>
    .ahnClassGap (BitVec.ofNat 1 (((h.early.find? fun e => e.2.cls == g.1).map (·.1)).getD 0)) (BitVec.ofNat 3 g.1)

/-- What a bay comes to (R295). -/
def bayDue (time : Nat) (e : Nat × Bay) : List Instr :=
  when_ (e.2.cmds.any fun c => decide (c.sent + 10000000 ≤ time)) (.cartridgeLinkTimeout (BitVec.ofNat 1 e.1))

/-- What the hub comes to by time alone. -/
def hubDue (s : State) : List Instr :=
  let h := s.hub
  let j := h.jnl
  ((h.jobs.filter fun e => e.2.barrier.any fun t => decide (t ≤ h.time)).map fun e => .barrierStart (BitVec.ofNat 6 e.1)) ++
  (h.ahn.flatMap (ahnDue h.time)) ++ gapsDue h ++ (h.bays.flatMap (bayDue h.time)) ++
  when_ (h.events != [] && (ahnPick s (eventFrame s)).isSome) .eventFrameSend ++
  when_ (j.isOpen && decide (j.openAt + dGet s 0x0400 8 ≤ h.time)) .segmentTimeLimit ++
  when_ (decide ((activeBays s).length = 1) && decide (j.lastWarn + 60000000000 ≤ h.time)) .singleBayWarning ++
  when_ ((oldestReq s).any fun r => decide (r.2.asked + 1000000 ≤ h.time)) .noAnswerTimeout

/-- The module's own transition (R388): 20 ms to Ready, 30 ms to Standby. -/
def moduleDue (s : State) : List Instr :=
  let h := s.hub
  when_ ((decide (h.modReq = 2) && decide (h.transAt + 20000000 ≤ h.time)) || (decide (h.modReq = 1) && decide (h.transAt + 30000000 ≤ h.time)))
    .modTransitionComplete

/-! ### What has arrived -/

/-- A link control item as the command that takes it (Table 14.7). -/
def lctlCommand (ch op : Nat) (k : Lctl) : List Instr :=
  match op with
  | 1 => [.lctlBarrier (chId ch) k]
  | 2 => [.lctlRevoke (chId ch) k]
  | 3 => [.lctlClear (chId ch) k]
  | 4 => [.lctlCommit (chId ch) k]
  | _ => []

/-- A packet as the command that takes it (Table 14.5); a message goes to its core. -/
def pktCommand (ch : Nat) (p : PktIn) : List Instr :=
  match p.kind with
  | 1 => [.rdreq (chId ch) .clean p.pkt]
  | 2 => [.rddata (chId ch) p.pkt]
  | 3 => [.pktWrite (chId ch) p.pkt]
  | 4 => [.wrdone (chId ch) p.pkt]
  | 5 => [.fault (chId ch) p.pkt]
  | 6 => lctlCommand ch (fld p.pkt.body 0 1) (lctlOf p.pkt)
  | 7 => [.lack (chId ch) (BitVec.ofNat 16 p.pkt.arg.toNat)]
  | 8 => [.reach (chId ch) (BitVec.ofNat 3 p.port) p.pkt]
  | _ => []

/-- A frame that has its turn, as the command that takes it (Tables 15.3-15.5; R346, R348, R382). -/
def frameCommand (f : Frame) : List Instr :=
  let a := f.arg.toNat
  let q : Req := ⟨.ahnec, BitVec.ofNat 32 f.cseq⟩
  match f.cls, f.op with
  | 0, 1 => [.manifest (BitVec.ofNat 6 f.job) (fieldAt a 0) f.payload]
  | 0, 2 => [.sectionBytes (BitVec.ofNat 6 f.job) (fieldAt a 40) (fieldAt a 0) f.payload]
  | 0, 3 => [.chunk (BitVec.ofNat 6 f.job) (fieldAt a 60) (fieldAt a 40) (fieldAt a 0) f.payload]
  | 1, 1 => [.dataWrite (fieldAt a 62) (BitVec.ofNat 16 f.job) (fieldAt a 0) f.payload q.cseq]
  | 1, 3 => [.dataRead (fieldAt a 62) (BitVec.ofNat 16 f.job) (fieldAt a 0) (BitVec.ofNat 32 (fld f.payload 0 4)) q.cseq]
  | 1, 5 => [.msgIn (fieldAt a 55) (BitVec.ofNat 16 f.job) (fieldAt a 51) f.payload q.cseq]
  | 2, 1 => [.dictRead q (fieldAt a 8) (fieldAt a 0)]
  | 2, 2 => [.dictWrite q (fieldAt a 8) (fieldAt a 0) f.payload]
  | 3, 1 => [.signalFrame (fieldAt a 62) (fieldAt a 32) (fieldAt a 0) (BitVec.ofNat 16 f.job)]
  | 6, 1 => [.quoteReq q (slice f.payload 0 32) (BitVec.ofNat 64 (fld f.payload 32 8))]
  | _, _ => []

/-- The instruction stream's frames name a job slot; one that names none has no slot to go to (DESIGN CHOICE: assumption log, 18). -/
def frameSlot (f : Frame) : Bool :=
  decide (f.cls ≠ 0) || decide (f.job < 64)

/-- The frames of the host port that have their turn leave the hub's list as commands. -/
def takeFrames (r : State × List Instr) : State × List Instr :=
  (updHub r.1 fun h => { h with inbox := [] }, r.2 ++ (r.1.hub.inbox.filter frameSlot).flatMap frameCommand)

/-- The link control items whose way over the hub has ended become commands (DESIGN CHOICE: assumption log, 10). -/
def takeRelays (r : State × List Instr) : State × List Instr :=
  let due : Nat × Nat × Nat × Lctl → Bool := fun e => decide (e.1 ≤ r.1.hub.time)
  (updHub r.1 fun h => { h with relay := h.relay.filter fun e => !due e },
    r.2 ++ (r.1.hub.relay.filter due).flatMap fun e => lctlCommand e.2.1 e.2.2.1 e.2.2.2)

/-- A packet taken: a message sets out for its core's store, any other becomes a command. -/
def takePacket (ch : Nat) (r : State × List Instr) (p : PktIn) : State × List Instr :=
  (if p.kind = 0 then flyLocal r.1 ch 0 false (msgOf p.pkt.body) else r.1, r.2 ++ pktCommand ch p)

/-- The packets due at a channel in the cycle to come. -/
def takePackets (r : State × List Instr) (ch : Nat) : State × List Instr :=
  let k := getCh r.1 ch
  let due : PktIn → Bool := fun p => decide (p.due ≤ k.cycles)
  (k.pktIn.filter due).foldl (takePacket ch) (updCh r.1 ch fun k => { k with pktIn := k.pktIn.filter fun p => !due p }, r.2)

/-- The flits due at the drawbar ports of a channel in the cycle to come. -/
def takeFlits (r : State × List Instr) (ch : Nat) : State × List Instr :=
  let k := getCh r.1 ch
  let due : Nat × List Byte → Bool := fun f => decide (f.1 ≤ k.cycles)
  (updCh r.1 ch fun k => { k with ports := tabMap k.ports fun _ lp => { lp with inFly := lp.inFly.filter fun f => !due f } },
    r.2 ++ k.ports.flatMap fun e => (e.2.inFly.filter due).map fun f => .flitReceipt (chId ch) (BitVec.ofNat 3 e.1) f.2)

/-! ### The tick -/

/-- The channels the module has powered. -/
def powered (s : State) : List Nat :=
  [0, 1, 2, 3].filter fun ch => (tabFind s.ch ch).isSome

/-- Everything that is due becomes the commands that wait, of the channels with a cycle to come `chs`. -/
def collect (s : State) (chs : List Nat) : State :=
  let r := takeFrames (takeRelays (s, []))
  let r := chs.foldl takeFlits (chs.foldl takePackets r)
  let s := r.1
  { s with pending := s.pending ++ chs.flatMap (cycleDue s) ++ r.2 ++ (powered s).flatMap (channelDue s) ++ hubDue s ++ moduleDue s }

/-- The external ports at their flit boundaries: what the nanosecond that ends has left free is filled (R306, R311). -/
def portSlots (s : State) : State :=
  [0, 1, 2, 3].foldl (fun s ch => [0, 1, 2, 3].foldl (fun s p => portSlot s ch p) s) s

/-- One tick of Fabric Time, 1 ns (DESIGN CHOICE: assumption log, 1): the clocks advance, and what is due at the new time and in the cycles that begin
with it is commanded. In Standby only the time and the module's own transition go on; Off, the time alone. -/
def passTime (s : State) : State :=
  let s := updHub (portSlots s) fun h => { h with time := h.time + 1 }
  match s.hub.st with
  | .off => s
  | .standby => { s with pending := s.pending ++ moduleDue s }
  | _ =>
    let r := [0, 1, 2, 3].foldl tickChannel (updHub s fun h => { h with uptime := h.uptime + 1 }, [])
    collect (updHub (drawbarsUp r.1) fun h => { h with turn := r.2 }) r.2

/-- What an idle machine does: where boundaries have come, and what was due at them has been commanded and performed, the cycles that
begin there; else time passes. -/
def tick (s : State) : State :=
  match s.hub.turn with
  | [] => passTime s
  | chs => chs.foldl nextCycle (chs.foldl turnChannel (updHub s fun h => { h with turn := [] }))

end Sys2Proof.Machine
end

