-- ==== Sys2Proof/Machine/Step.lean ====
section
/-! DEFINITION. Step: the command at the front of the queue is taken and executed. With none waiting, one tick of Fabric Time passes
in two phases: the clocks advance and what is due joins the queue; once that is performed, the next idle step runs the cycles of the
channels in `hub.turn` (DESIGN CHOICE: assumption log, 1). -/

namespace Sys2Proof.Machine

/-- One step of the machine. -/
def step (s : State) : Host.Outcome State Fault Refusal :=
  match s.pending with
  | i :: r => exec i { s with pending := r }
  | [] => .next (tick s)

/-- The machine with the command that a word spells at the front of its queue; the table gives no row bits, so no word spells one
(DEDUCED: assumption log, 16). -/
def State.withFetchWord (s : State) (nbits w : Nat) : State :=
  match decodeTableWord nbits w with
  | some i => { s with pending := i :: s.pending }
  | none => s

end Sys2Proof.Machine
end

