-- ==== Sys2Proof/Safety.lean ====
section
/-! DEFINITION. Safety: what a claim about a run speaks of. A run is safe for a core while no condition of R50 to R54 has halted it;
a command is confined when it changes one core, one channel or the hub alone; and the forms in which a slot command's result is said. -/

namespace Sys2Proof.Machine

/-- No core of the module has halted (R50). -/
def NoneHalted (s : State) : Prop :=
  ∀ ch n, (coreOf (getCh s ch) n).status ≠ .halted

/-- Outside the channels nothing has changed. -/
def OnlyChannels (s t : State) : Prop :=
  { t with ch := s.ch } = s

/-- Outside one channel nothing has changed. -/
def OnlyChannel (s t : State) (n : Nat) : Prop :=
  OnlyChannels s t ∧ ∀ m, m ≠ n → getCh t m = getCh s m

/-- Outside the cores of one channel nothing has changed. -/
def OnlyCores (s t : State) (n : Nat) : Prop :=
  OnlyChannel s t n ∧ { getCh t n with cores := (getCh s n).cores } = getCh s n

/-- Outside one core nothing has changed. -/
def OnlyCore (s t : State) (c : CoreId) : Prop :=
  OnlyCores s t (chOf c) ∧ ∀ n, n ≠ inCh c → coreOf (getCh t (chOf c)) n = coreOf (getCh s (chOf c)) n

/-- Outside the hub nothing has changed. -/
def OnlyHub (s t : State) : Prop :=
  { t with hub := s.hub } = s

/-- The core's record has become `k`, and nothing else has changed. -/
def CoreBecomes (s t : State) (c : CoreId) (k : Core) : Prop :=
  getCore t c = k ∧ OnlyCore s t c

/-- The command answers a next state, and `P` says what it holds. -/
def Answers (i : Instr) (s : State) (P : State → Prop) : Prop :=
  ∃ t, exec i s = .next t ∧ P t

/-- A write of the object is let through to its effect: the request's port is up and no gate of Table 15.9 refuses it (R354, R373). -/
def MayCommand (s : State) (q : Req) (idx sub : Nat) : Prop :=
  portUp s q = true ∧ writeGate s q idx sub = none

/-- The state is one that holds what `P` says, in which the request was then answered with a result code and data. -/
def Answered (q : Req) (code : Nat) (data : List Byte) (P : State → Prop) (t : State) : Prop :=
  ∃ u, t = answer u q code data ∧ P u

/-- One event of a code has joined those that wait for their frame (Table 15.7). -/
def Reports (s t : State) (code : Nat) : Prop :=
  ∃ r, t.hub.events = s.hub.events ++ [r] ∧ fld r 0 2 = code

/-- The number that `n` bytes of a memory from an address spell, least significant first, read one by one. -/
def memNat (m : Mem) (a : Nat) : Nat → Nat
  | 0 => 0
  | n + 1 => (memGet m a).toNat + 256 * memNat m (a + 1) n

/-- General register `r` of the core has become `v`, and nothing else has changed: no other register, no other part of the core, no
other core, no other state. -/
def WritesReg (s t : State) (c : CoreId) (r : BitVec 4) (v : Word) : Prop :=
  (∀ x, gReg (getCore t c) x = if x = r.toNat then v else gReg (getCore s c) x) ∧
    { getCore t c with g := (getCore s c).g } = getCore s c ∧ OnlyCore s t c

/-- The `n` bytes of the core's data memory from `a` have become those of `v`, least significant first, every other byte is as it was,
and nothing else has changed. -/
def WritesData (s t : State) (c : CoreId) (a n v : Nat) : Prop :=
  (∀ x, memGet (getCore t c).dmem x =
    if a ≤ x ∧ x < a + n then BitVec.ofNat 8 (v / 256 ^ (x - a)) else memGet (getCore s c).dmem x) ∧
    { getCore t c with dmem := (getCore s c).dmem } = getCore s c ∧ OnlyCore s t c

/-- A V result has set out for register `vd`, due `lat` schedule cycles after issue, with the bits and mask `vals` in each of 128 lanes, and
nothing else has changed (R115). -/
def SetsOutV (s t : State) (c : CoreId) (lat vd : Nat) (vals : Nat → Word × Word) : Prop :=
  ∃ it : VItem, CoreBecomes s t c { getCore s c with vPipe := (getCore s c).vPipe ++ [it] } ∧
    it.due = (getCh s (chOf c)).sched + lat ∧ it.vd = vd ∧ it.unit = none ∧ it.vals = (List.range 128).map vals

/-- The block of lane `i` of a block output, encoded under R65: the 32 or 64 lanes about it, each with its rounding. -/
def blockAt (fmt : Nat) (src : Nat → FV × Rnd) (i : Nat) : BlockEnc :=
  let n := (blockShape fmt).2
  encodeBlock (blockShape fmt).1 ((List.range n).map fun j => src (i / n * n + j))

/-- The lanes of a block output in split form (R65, R95, R120): in every lane its mantissa at the position and its block's scale byte at the
scale position. The mantissas of a NaN block are the encoder's own, which never produces −2^(w−1) (R59). -/
def BlockLanes (fmt pos spos : Nat) (src : Nat → FV × Rnd) (vals : List (Word × Word)) : Prop :=
  vals.length = 128 ∧ ∀ i x, vals[i]? = some x → ∃ m : Int,
    |m| < 2 ^ ((blockShape fmt).1 - 1) ∧
    ((blockAt fmt src i).nan = false → m = (blockAt fmt src i).mants.getD (i % (blockShape fmt).2) 0) ∧
    x.2 = BitVec.ofNat 32 (255 * 2 ^ (8 * pos) + 255 * 2 ^ (8 * spos)) ∧
    x.1 = BitVec.ofNat 32 (byteOfInt m * 2 ^ (8 * pos) + (blockAt fmt src i).scale * 2 ^ (8 * spos))

/-- A flag that some block of a block output sets. -/
def BlockFlag (fmt : Nat) (src : Nat → FV × Rnd) (flag : BlockEnc → Bool) : Bool :=
  (List.range 128).any fun i => flag (blockAt fmt src i)

/-- The core has halted on the condition `reason` found at issue of an instruction of slot `slot` (R50, R51): the record names the row
word now issuing. -/
def HaltsAtIssue (s t : State) (c : CoreId) (slot reason : Nat) : Prop :=
  (getCore t c).status = .halted ∧
    (getCore t c).halt = some ⟨(startCore s c).sched, reason, false, slot, (startCore s c).pc⟩

end Sys2Proof.Machine
end

