-- ==== Sys2Proof/WellFormed.lean ====
section
/-! DEFINITION. WellFormed: what a command must be for the table's row to describe it: sizes of what it carries, and the fields that
tell two rows of one encoding apart. The machine itself takes any term; what a malformed one would mean is not in the spec. -/

namespace Sys2Proof

/-- The body of a packet is as long as its kind gives it (Table 14.6). -/
def pktBody (k : Pkt) (lo hi : Nat) : Bool :=
  decide (lo ≤ k.body.length) && decide (k.body.length ≤ hi)

/-- A received frame or link word: 32 bytes, or a frame of whole 32-byte units up to 9,216 bytes (R332, R334). -/
def frameSize (bytes : List Byte) : Bool :=
  decide (bytes.length = 32) || (decide (64 ≤ bytes.length) && decide (bytes.length ≤ 9216) && decide (bytes.length % 32 = 0))

/-- A payload that one frame holds (R332). -/
def payload (bytes : List Byte) : Bool :=
  decide (bytes.length ≤ 9180)

/-- A command is well-formed. -/
def Instr.wf (i : Instr) : Bool :=
  match i with
  | .loop _ _ _ _ _ _ => true
  | .setc _ _ _ _ => true
  | .skip _ _ _ _ _ _ => true
  | .step _ _ => true
  | .done _ _ => true
  | .hlt _ _ _ _ _ => true
  | .add _ _ _ _ _ => true
  | .sub _ _ _ _ _ => true
  | .mul _ _ _ _ _ => true
  | .mulh _ _ _ _ _ => true
  | .mulhu _ _ _ _ _ => true
  | .min _ _ _ _ _ => true
  | .max _ _ _ _ _ => true
  | .and _ _ _ _ _ => true
  | .or _ _ _ _ _ => true
  | .xor _ _ _ _ _ => true
  | .sll _ _ _ _ _ => true
  | .srl _ _ _ _ _ => true
  | .sra _ _ _ _ _ => true
  | .seq _ _ _ _ _ => true
  | .sne _ _ _ _ _ => true
  | .slt _ _ _ _ _ => true
  | .sltu _ _ _ _ _ => true
  | .sel _ _ _ _ _ => true
  | .clz _ _ _ _ _ => true
  | .popc _ _ _ _ _ => true
  | .addi _ _ _ _ => true
  | .andi _ _ _ _ => true
  | .ori _ _ _ _ => true
  | .xori _ _ _ _ => true
  | .slli _ _ _ _ => true
  | .srli _ _ _ _ => true
  | .srai _ _ _ _ => true
  | .seqi _ _ _ _ => true
  | .slti _ _ _ _ => true
  | .sltiu _ _ _ _ => true
  | .li _ _ _ => true
  | .lui _ _ _ => true
  | .lw _ _ _ _ => true
  | .lh _ _ _ _ => true
  | .lhu _ _ _ _ => true
  | .lb _ _ _ _ => true
  | .lbu _ _ _ _ => true
  | .sw _ _ _ _ => true
  | .sh _ _ _ _ => true
  | .sb _ _ _ _ => true
  | .mte _ _ _ _ => true
  | .mfe _ _ _ _ => true
  | .mtc _ _ _ _ => true
  | .mfl _ _ _ _ => true
  | .rdt _ _ _ _ => true
  | .load _ _ kind _ _ _ _ => decide (kind ≠ 4)
  | .accPreload _ _ _ _ _ _ => true
  | .store _ _ _ _ _ _ => true
  | .loadLanding _ => true
  | .mmx _ _ => true
  | .mmxe _ _ => true
  | .mclr _ _ => true
  | .mdrn _ _ => true
  | .mraw _ _ => true
  | .mimg _ _ => true
  | .mchk _ _ => true
  | .accUpdate _ => true
  | .checkVerdict _ _ _ => true
  | .drainLanding _ _ => true
  | .ballastDummy _ => true
  | .vadd _ _ => true
  | .vsub _ _ => true
  | .vmul _ _ => true
  | .vfma _ _ => true
  | .vfnma _ _ => true
  | .vmin _ _ => true
  | .vmax _ _ => true
  | .vabs _ _ => true
  | .vneg _ _ => true
  | .vcmp _ _ => true
  | .vsel _ _ => true
  | .vand _ _ => true
  | .vor _ _ => true
  | .vxor _ _ => true
  | .vsll _ _ => true
  | .vsrl _ _ => true
  | .vsra _ _ => true
  | .vmov _ _ => true
  | .vfnExp2 _ _ => true
  | .vfnLog2 _ _ => true
  | .vfnReciprocal _ _ => true
  | .vfnRsqrt _ _ => true
  | .vfnTanh _ _ => true
  | .vfnSigmoid _ _ => true
  | .vfnSilu _ _ => true
  | .vfnGelu _ _ => true
  | .vfnSin _ _ => true
  | .vfnCos _ _ => true
  | .vrand _ _ => true
  | .vcvt _ _ => true
  | .vbenc _ _ => true
  | .vbpack _ _ => true
  | .vbunpk _ _ => true
  | .vred _ w => decide (w.toNat / 2 ^ 27 % 8 ≠ 5)
  | .vredPrefix _ w => decide (w.toNat / 2 ^ 27 % 8 = 5)
  | .vtopk _ _ => true
  | .umom _ _ => true
  | .usgd _ _ => true
  | .uadm1 _ _ => true
  | .uadm2 _ _ => true
  | .uadp _ _ => true
  | .ukst _ _ => true
  | .ukns _ _ => true
  | .ukap _ _ => true
  | .vResultLanding _ _ => true
  | .sget _ _ _ _ _ _ => true
  | .sput _ _ _ _ _ => true
  | .sdue _ _ _ _ _ => true
  | .srel _ _ _ _ _ => true
  | .sdrain _ _ _ _ _ => true
  | .fillBeat _ => true
  | .egressBeat _ _ => true
  | .sputComplete _ => true
  | .sidingEntry _ => true
  | .remoteRead _ _ => true
  | .remoteRingCheck _ => true
  | .memberSrelArrival _ => true
  | .segmentStateTimeout _ => true
  | .send _ _ _ _ => true
  | .recv _ _ _ _ _ _ => true
  | .xSel _ _ _ _ _ _ _ => true
  | .wait _ _ _ _ _ => true
  | .signal _ _ _ => true
  | .couple _ _ _ => true
  | .uncouple _ _ _ => true
  | .xHeadRelease _ => true
  | .messageArrival _ => true
  | .coupleMarkerArrival _ => true
  | .uncoupleMarkerArrival _ => true
  | .refusalArrival _ => true
  | .hopperContribution _ _ => true
  | .hopperFold _ => true
  | .signalArrival _ _ => true
  | .waitTest _ _ => true
  | .waitReleaseArrival _ => true
  | .signalFrame _ _ _ _ => true
  | .taskEnd _ => true
  | .brakeEnd _ => true
  | .brakeLimit _ => true
  | .throttleBrake _ => true
  | .droopStretch _ _ _ _ => true
  | .oppointSwitch _ => true
  | .timeFlitSend _ _ => true
  | .timeStampReceipt _ _ _ _ _ => true
  | .linkDelayMeasurement _ _ => true
  | .echoReq _ _ _ _ => true
  | .echoRsp _ _ _ _ _ _ => true
  | .ftSourceLost _ => true
  | .launchRelease _ _ => true
  | .barrierStart _ => true
  | .stepClear _ _ => true
  | .lctlClear _ _ => true
  | .lctlCommit _ _ => true
  | .commitComplete _ _ => true
  | .lctlRevoke _ _ => true
  | .revokeDrainComplete _ _ => true
  | .shuntCopyComplete _ _ => true
  | .lctlBarrier _ _ => true
  | .lack _ _ => true
  | .lctlResendTimeout _ _ => true
  | .seizeFenceDrained _ => true
  | .flitReceipt _ _ bytes => decide (bytes.length = 256)
  | .rdreq _ _ k => pktBody k 8 8
  | .rddata _ k => pktBody k 1 4096
  | .pktWrite _ k => pktBody k 1 4096
  | .wrdone _ k => pktBody k 0 0
  | .fault _ k => pktBody k 0 0
  | .reach _ _ k => pktBody k 0 0
  | .gddr7Refresh _ => true
  | .selfRefreshEntry _ => true
  | .cxlLinkDown _ => true
  | .cxlBringupComplete _ _ _ _ _ => true
  | .portSignalDetect _ _ => true
  | .portTrainingComplete _ _ _ _ _ _ => true
  | .portTrainingTimeout _ _ => true
  | .portLinkLoss _ _ => true
  | .portAckTimeout _ _ => true
  | .portShutdownComplete _ _ => true
  | .lnkEnable _ _ _ => true
  | .lnkDisable _ _ _ => true
  | .lnkRouteData _ _ bytes => payload bytes
  | .ahnFrameReceipt _ bytes => frameSize bytes
  | .ahnResendTimeout _ => true
  | .ahnLightDetect _ => true
  | .ahnTrainingComplete _ => true
  | .ahnTrainingTimeout _ => true
  | .ahnLinkLoss _ => true
  | .ahnShutdownComplete _ => true
  | .ahnEnable _ _ => true
  | .ahnDisable _ _ => true
  | .ahnClassGap _ _ => true
  | .cartridgeLinkTimeout _ => true
  | .eventFrameSend => true
  | .manifest _ _ bytes => payload bytes
  | .sectionBytes _ _ _ bytes => payload bytes
  | .chunk _ _ _ _ bytes => payload bytes
  | .dataWrite _ _ _ bytes _ => payload bytes
  | .dataRead _ _ _ _ _ => true
  | .msgIn _ _ _ bytes _ => payload bytes
  | .dictRead _ _ _ => true
  | .dictWrite _ _ _ bytes => payload bytes
  | .quoteReq _ nonce _ => decide (nonce.length = 32)
  | .syncGrantApply _ _ _ => true
  | .syncDumpTake _ _ _ => true
  | .chOppointAt _ _ _ => true
  | .famRegionWrite _ _ _ bytes => payload bytes
  | .famWinData _ _ bytes => payload bytes
  | .jobPlace _ _ bytes => payload bytes
  | .jobOpen _ _ _ => true
  | .jobSeed _ _ _ => true
  | .jobLaunch _ _ _ => true
  | .jobBarrier _ _ _ => true
  | .jobRelease _ _ _ => true
  | .chkRevokeGo _ _ _ => true
  | .chkPosRestore _ _ _ => true
  | .chkSeizePos _ _ _ => true
  | .chkInspArm _ _ _ => true
  | .inspectionWindowStart _ => true
  | .patternResult _ _ => true
  | .inspectionWindowClose _ => true
  | .tpkVerify _ _ => true
  | .cwHaltCmd _ _ _ => true
  | .chIsolate _ _ => true
  | .chReload _ _ => true
  | .chReset _ _ => true
  | .chServe _ _ => true
  | .chTransitionComplete _ => true
  | .modStandbyRequest _ => true
  | .modReadyRequest _ => true
  | .modHubReset _ _ => true
  | .auxPowerUp _ => true
  | .auxPowerLoss => true
  | .mainInputLoss => true
  | .throttleEvaluation r => decide (r.power.length = 4) && decide (r.die.length = 4) && decide (r.gddr.length = 4)
  | .mgtProgGo _ _ => true
  | .secOwnerKey _ _ key sig => decide (key.length = 64) && decide (sig.length = 0 ∨ sig.length = 64)
  | .jnlSealNow _ _ => true
  | .segmentTimeLimit => true
  | .bayEject _ _ _ => true
  | .cartridgeInserted _ => true
  | .cartridgeRemoved _ => true
  | .appendResponse _ _ _ => true
  | .cartridgeResponse _ _ _ _ => true
  | .dictReq _ => true
  | .eventFetch _ => true
  | .entdaa _ => true
  | .setdasa _ _ => true
  | .rstdaa => true
  | .getpid => true
  | .getbcr => true
  | .getdcr => true
  | .getstatus => true
  | .getmrl => true
  | .setmrl _ => true
  | .getmwl => true
  | .setmwl _ => true
  | .enec _ => true
  | .disec _ => true
  | .setEndpointId _ _ => true
  | .getEndpointId => true
  | .getMctpVersionSupport _ => true
  | .getMessageTypeSupport => true
  | .getVendorMsgSupport _ => true
  | .modTransitionComplete => true
  | .syncWatchArm _ _ _ _ => true
  | .singleBayWarning => true
  | .noAnswerTimeout => true

end Sys2Proof
end

