-- ==== Sys2Proof/Certificates/Slice0/Obligations.lean ====
section
/-! DEFINITION. Obligations: what the provers are asked to prove of the model. Each says the rule of spec/ it formalises; a clause
that rests on a choice of the model names its log entry. -/

open Sys2Proof Sys2Proof.Machine

/-! ### The machine's step -/

/-- A step takes the command at the front of the queue and executes it on the state with the rest of the queue. -/
def Obligations.StepRunsFrontCommand : Prop :=
  ∀ (i : Instr) (r : List Instr) (s : State), step { s with pending := i :: r } = exec i { s with pending := r }

/-- With no command waiting, and the module Off or in Standby, a step is one tick of 1 ns: the time is one more, and neither channel nor
stored object changes (the model's choice, assumption log 1; R388, R389: no channel runs in these states). -/
def Obligations.IdleStepPassesOneTick : Prop :=
  ∀ s : State, s.pending = [] → s.hub.turn = [] → s.hub.st = .off ∨ s.hub.st = .standby → ∃ t, step s = .next t ∧
    t.hub.time = s.hub.time + 1 ∧ t.ch = s.ch ∧ t.dict = s.dict ∧ t.free = s.free ∧ t.hub.uptime = s.hub.uptime

/-- Every command completes in every state: none faults and none is refused. -/
def Obligations.EveryCommandAnswersNext : Prop :=
  ∀ (i : Instr) (s : State), ∃ t, exec i s = .next t

/-! ### The coachman -/

/-- R26, R40, R41, Table 2.4, format R: the eighteen instructions of two sources write rd with the value the table gives, of the registers as
they stood at the start of the cycle, and change nothing else. Table 2.4, clz and popc: rd becomes the count of leading zeros, 32 for
zero, or of one bits, of rs1. -/
def Obligations.CoachmanRegisterForms : Prop :=
  (∀ (s : State) (c : CoreId) (rd rs1 rs2 : BitVec 4), canIssue s c = true →
      let a := gReg (startCore s c) rs1.toNat
      let b := gReg (startCore s c) rs2.toNat
      let n := b.toNat % 32
      Answers (.add c rd rs1 rs2 0) s (WritesReg s · c rd (BitVec.ofNat 32 (a.toNat + b.toNat))) ∧
      Answers (.sub c rd rs1 rs2 0) s (WritesReg s · c rd (BitVec.ofInt 32 (a.toInt - b.toInt))) ∧
      Answers (.mul c rd rs1 rs2 0) s (WritesReg s · c rd (BitVec.ofInt 32 (a.toInt * b.toInt))) ∧
      Answers (.mulh c rd rs1 rs2 0) s (WritesReg s · c rd (BitVec.ofInt 32 (a.toInt * b.toInt / 2 ^ 32))) ∧
      Answers (.mulhu c rd rs1 rs2 0) s (WritesReg s · c rd (BitVec.ofNat 32 (a.toNat * b.toNat / 2 ^ 32))) ∧
      Answers (.min c rd rs1 rs2 0) s (WritesReg s · c rd (BitVec.ofInt 32 (min a.toInt b.toInt))) ∧
      Answers (.max c rd rs1 rs2 0) s (WritesReg s · c rd (BitVec.ofInt 32 (max a.toInt b.toInt))) ∧
      Answers (.and c rd rs1 rs2 0) s (WritesReg s · c rd (a &&& b)) ∧
      Answers (.or c rd rs1 rs2 0) s (WritesReg s · c rd (a ||| b)) ∧
      Answers (.xor c rd rs1 rs2 0) s (WritesReg s · c rd (a ^^^ b)) ∧
      Answers (.sll c rd rs1 rs2 0) s (WritesReg s · c rd (BitVec.ofNat 32 (a.toNat * 2 ^ n))) ∧
      Answers (.srl c rd rs1 rs2 0) s (WritesReg s · c rd (BitVec.ofNat 32 (a.toNat / 2 ^ n))) ∧
      Answers (.sra c rd rs1 rs2 0) s (WritesReg s · c rd (BitVec.ofInt 32 (a.toInt / 2 ^ n))) ∧
      Answers (.seq c rd rs1 rs2 0) s (WritesReg s · c rd (if a = b then 1 else 0)) ∧
      Answers (.sne c rd rs1 rs2 0) s (WritesReg s · c rd (if a = b then 0 else 1)) ∧
      Answers (.slt c rd rs1 rs2 0) s (WritesReg s · c rd (if a.toInt < b.toInt then 1 else 0)) ∧
      Answers (.sltu c rd rs1 rs2 0) s (WritesReg s · c rd (if a.toNat < b.toNat then 1 else 0)) ∧
      Answers (.sel c rd rs1 rs2 0) s (WritesReg s · c rd (if gReg (startCore s c) rd.toNat ≠ 0 then a else b))) ∧
  (∀ (s : State) (c : CoreId) (rd rs1 : BitVec 4), canIssue s c = true →
      let a := gReg (startCore s c) rs1.toNat
      Answers (.clz c rd rs1 0 0) s (fun t => ∃ n, WritesReg s t c rd (BitVec.ofNat 32 n) ∧
        n ≤ 32 ∧ a.toNat < 2 ^ (32 - n) ∧ (n < 32 → 2 ^ (31 - n) ≤ a.toNat)) ∧
      Answers (.popc c rd rs1 0 0) s
        (WritesReg s · c rd (BitVec.ofNat 32 (Finset.univ.filter fun i : Fin 32 => a.getLsbD i = true).card)))

/-- R40, R41, Table 2.4, formats I and U: imm18 sign-extended, or zero-extended in the logical forms; shifts by imm18 below 32; li
sign-extends imm22, lui shifts it left by 10. -/
def Obligations.CoachmanImmediateForms : Prop :=
  ∀ (s : State) (c : CoreId) (rd rs1 : BitVec 4) (imm : BitVec 18) (imm22 : BitVec 22), canIssue s c = true →
    let a := gReg (startCore s c) rs1.toNat
    let n := imm.toNat
    Answers (.addi c rd rs1 imm) s (WritesReg s · c rd (BitVec.ofInt 32 (a.toInt + imm.toInt))) ∧
    Answers (.andi c rd rs1 imm) s (WritesReg s · c rd (BitVec.ofNat 32 (a.toNat &&& imm.toNat))) ∧
    Answers (.ori c rd rs1 imm) s (WritesReg s · c rd (BitVec.ofNat 32 (a.toNat ||| imm.toNat))) ∧
    Answers (.xori c rd rs1 imm) s (WritesReg s · c rd (BitVec.ofNat 32 (a.toNat ^^^ imm.toNat))) ∧
    Answers (.seqi c rd rs1 imm) s (WritesReg s · c rd (if a.toInt = imm.toInt then 1 else 0)) ∧
    Answers (.slti c rd rs1 imm) s (WritesReg s · c rd (if a.toInt < imm.toInt then 1 else 0)) ∧
    Answers (.sltiu c rd rs1 imm) s (WritesReg s · c rd (if a.toNat < (imm.signExtend 32).toNat then 1 else 0)) ∧
    (n < 32 → Answers (.slli c rd rs1 imm) s (WritesReg s · c rd (BitVec.ofNat 32 (a.toNat * 2 ^ n)))) ∧
    (n < 32 → Answers (.srli c rd rs1 imm) s (WritesReg s · c rd (BitVec.ofNat 32 (a.toNat / 2 ^ n)))) ∧
    (n < 32 → Answers (.srai c rd rs1 imm) s (WritesReg s · c rd (BitVec.ofInt 32 (a.toInt / 2 ^ n)))) ∧
    Answers (.li c rd imm22) s (WritesReg s · c rd (BitVec.ofInt 32 imm22.toInt)) ∧
    Answers (.lui c rd imm22) s (WritesReg s · c rd (BitVec.ofNat 32 (imm22.toNat * 1024)))

/-- R41, the loads: ea = g[base] + sext(offset) in 32 bits, in range and aligned; rd becomes the bytes at ea, little-endian, as the data
memory stood at the start of the cycle, sign- or zero-extended. -/
def Obligations.CoachmanLoads : Prop :=
  ∀ (s : State) (c : CoreId) (rd base : BitVec 4) (off : BitVec 18), canIssue s c = true →
    Mem.wf (startCore s c).dmem = true →
    let ea := (gReg (startCore s c) base.toNat + off.signExtend 32).toNat
    let v := memNat (startCore s c).dmem ea
    (ea + 4 ≤ 65536 → ea % 4 = 0 → Answers (.lw c rd base off) s (WritesReg s · c rd (BitVec.ofNat 32 (v 4)))) ∧
    (ea + 2 ≤ 65536 → ea % 2 = 0 → Answers (.lh c rd base off) s (WritesReg s · c rd ((BitVec.ofNat 16 (v 2)).signExtend 32))) ∧
    (ea + 2 ≤ 65536 → ea % 2 = 0 → Answers (.lhu c rd base off) s (WritesReg s · c rd (BitVec.ofNat 32 (v 2)))) ∧
    (ea + 1 ≤ 65536 → Answers (.lb c rd base off) s (WritesReg s · c rd ((BitVec.ofNat 8 (v 1)).signExtend 32))) ∧
    (ea + 1 ≤ 65536 → Answers (.lbu c rd base off) s (WritesReg s · c rd (BitVec.ofNat 32 (v 1))))

/-- R41, R252, the stores: the 4, 2 or 1 low bytes of rs stand at ea, little-endian; every other byte of the data memory and all else
are as before. -/
def Obligations.CoachmanStores : Prop :=
  ∀ (s : State) (c : CoreId) (rs base : BitVec 4) (off : BitVec 18), canIssue s c = true →
    let k := startCore s c
    let ea := (gReg k base.toNat + off.signExtend 32).toNat
    let v := (gReg k rs.toNat).toNat
    (ea + 4 ≤ 65536 → ea % 4 = 0 → touchesHeld k 1 ea 4 = false → Answers (.sw c rs base off) s (WritesData s · c ea 4 v)) ∧
    (ea + 2 ≤ 65536 → ea % 2 = 0 → touchesHeld k 1 ea 2 = false → Answers (.sh c rs base off) s (WritesData s · c ea 2 v)) ∧
    (ea + 1 ≤ 65536 → touchesHeld k 1 ea 1 = false → Answers (.sb c rs base off) s (WritesData s · c ea 1 v))

/-- R31, R32, R41, R42, Table 2.5: mtc writes a level's count register alone, mfl reads the index register, rdt reads a counter, and a low
read latches the high half that the matching high read returns. R44, Tables 2.7, 4.6, 5.8, 6.7, 7.8: an mte to a written register that
keeps what is written stores its non-reserved bits, and an mfe of it afterwards returns them; the registers whose flags a written 1 clears
keep the flags not named. -/
def Obligations.CoachmanSpecialRegisters : Prop :=
  (∀ (s : State) (c : CoreId) (lvl : BitVec 2) (r : BitVec 4), canIssue s c = true →
      let k := startCore s c
      let ft := (getCh s (chOf c)).ft
      ((gReg k r.toNat).toNat ≤ 16777215 → Answers (.mtc c lvl r 0) s fun t =>
        OnlyCore s t c ∧ { getCore t c with loops := (getCore s c).loops } = getCore s c ∧
        ∀ l, loopOf (getCore t c) l =
          if l = lvl.toNat then { loopOf (getCore s c) l with count := (gReg k r.toNat).toNat } else loopOf (getCore s c) l) ∧
      Answers (.mfl c lvl r 0) s (WritesReg s · c r (BitVec.ofNat 32 (loopOf k lvl.toNat).index)) ∧
      Answers (.rdt c r 0 0) s (CoreBecomes s · c (setG r.toNat (BitVec.ofNat 32 k.step)
        { getCore s c with hiStep := BitVec.ofNat 32 (k.step / 2 ^ 32) })) ∧
      Answers (.rdt c r 1 0) s (WritesReg s · c r k.hiStep) ∧
      Answers (.rdt c r 2 0) s (CoreBecomes s · c (setG r.toNat (BitVec.ofNat 32 ft)
        { getCore s c with hiFt := BitVec.ofNat 32 (ft / 2 ^ 32) })) ∧
      Answers (.rdt c r 3 0) s (WritesReg s · c r k.hiFt) ∧
      Answers (.rdt c r 4 0) s (CoreBecomes s · c (setG r.toNat (BitVec.ofNat 32 k.sched)
        { getCore s c with hiSched := BitVec.ofNat 32 (k.sched / 2 ^ 32) })) ∧
      Answers (.rdt c r 5 0) s (WritesReg s · c r k.hiSched)) ∧
  (∀ (s : State) (c : CoreId) (r : BitVec 4) (a : BitVec 10), canIssue s c = true →
      let k := startCore s c
      let v := gReg k r.toNat &&& ecrMask a.toNat
      (mteFault k r a 0 = none → a.toNat ≠ 0x300 → ecrClears a.toNat = false → Answers (.mte c r a 0) s fun t =>
        (∀ x, ecrGet (getCore t c) x = if x = a.toNat then v else ecrGet (getCore s c) x) ∧
        { getCore t c with ecr := (getCore s c).ecr } = getCore s c ∧ OnlyCore s t c) ∧
      (mteFault k r a 0 = none → ecrClears a.toNat = true → Answers (.mte c r a 0) s fun t =>
        (∀ x, x ≠ a.toNat → ecrGet (getCore t c) x = ecrGet (getCore s c) x) ∧
        (∀ i, (ecrGet (getCore s c) (freshKey a.toNat)).getLsbD i = false →
          (ecrGet (getCore t c) a.toNat).getLsbD i = ((ecrGet (getCore s c) a.toNat).getLsbD i && !v.getLsbD i)) ∧
        { getCore t c with ecr := (getCore s c).ecr } = getCore s c ∧ OnlyCore s t c) ∧
      (ecrWritable a.toNat = true → Answers (.mfe c r a 0) s (WritesReg s · c r (ecrGet k a.toNat))) ∧
      Answers (.mfe c r 0x000 0) s (WritesReg s · c r (BitVec.ofNat 32 (posOf (getCh s (chOf c)) (inCh c) * 512 + c.toNat))) ∧
      Answers (.mfe c r 0x003 0) s (WritesReg s · c r (BitVec.ofNat 32 k.pc)))

/-- R41, R252: a data-memory access out of range halts with 0x24, a misaligned one with 0x25, a store into a held range of the step with 0x2C;
R51: the record names the row word and slot C. R25, R44, Table 2.12: a reserved field that is not zero halts with 0x08, an ECR address
that no chapter assigns with 0x0E, an mte to a read-only register with 0x0F, an mtc value above 16,777,215 with 0x16, a reserved rdt
select with 0x02. -/
def Obligations.CoachmanFaults : Prop :=
  (∀ (s : State) (c : CoreId) (r base : BitVec 4) (off : BitVec 18), canIssue s c = true → (getCore s c).status = .running →
      let k := startCore s c
      let ea := (gReg k base.toNat + off.signExtend 32).toNat
      let halts := fun (i : Instr) (reason : Nat) => Answers i s (HaltsAtIssue s · c 1 reason)
      (65536 < ea + 4 → halts (.lw c r base off) 0x24 ∧ halts (.sw c r base off) 0x24) ∧
      (65536 < ea + 2 → halts (.lh c r base off) 0x24 ∧ halts (.lhu c r base off) 0x24 ∧ halts (.sh c r base off) 0x24) ∧
      (65536 < ea + 1 → halts (.lb c r base off) 0x24 ∧ halts (.lbu c r base off) 0x24 ∧ halts (.sb c r base off) 0x24) ∧
      (ea + 4 ≤ 65536 → ea % 4 ≠ 0 → halts (.lw c r base off) 0x25 ∧ halts (.sw c r base off) 0x25) ∧
      (ea + 2 ≤ 65536 → ea % 2 ≠ 0 → halts (.lh c r base off) 0x25 ∧ halts (.lhu c r base off) 0x25 ∧ halts (.sh c r base off) 0x25) ∧
      (ea + 4 ≤ 65536 → ea % 4 = 0 → touchesHeld k 1 ea 4 = true → halts (.sw c r base off) 0x2C)) ∧
  (∀ (s : State) (c : CoreId) (rd rs1 rs2 : BitVec 4) (rsv : BitVec 14) (a : BitVec 10) (lvl : BitVec 2) (sel : BitVec 3) (imm : BitVec 18),
      canIssue s c = true → (getCore s c).status = .running →
      let halts := fun (i : Instr) (reason : Nat) => Answers i s (HaltsAtIssue s · c 1 reason)
      (rsv ≠ 0 → halts (.add c rd rs1 rs2 rsv) 0x08 ∧ halts (.sel c rd rs1 rs2 rsv) 0x08 ∧ halts (.clz c rd rs1 rs2 rsv) 0x08) ∧
      (rs2 ≠ 0 → halts (.clz c rd rs1 rs2 0) 0x08 ∧ halts (.popc c rd rs1 rs2 0) 0x08) ∧
      (32 ≤ imm.toNat → halts (.slli c rd rs1 imm) 0x08 ∧ halts (.srli c rd rs1 imm) 0x08 ∧ halts (.srai c rd rs1 imm) 0x08) ∧
      (ecrWritable a.toNat = false → ecrReadOnly a.toNat = false → halts (.mte c rd a 0) 0x0E ∧ halts (.mfe c rd a 0) 0x0E) ∧
      (ecrReadOnly a.toNat = true → halts (.mte c rd a 0) 0x0F) ∧
      (16777215 < (gReg (startCore s c) rd.toNat).toNat → halts (.mtc c lvl rd 0) 0x16) ∧
      (6 ≤ sel.toNat → halts (.rdt c rd sel 0) 0x02))

/-! ### The loop sequencer and the P slot -/

/-- R34: after a row word with no loop instruction the sequencer tests the active levels from the highest down: a level whose body ends
there goes back while its index leaves iterations, else it ends and the next level is tested; any other row goes on to the next. -/
def Obligations.LoopSequencer : Prop :=
  ∀ (k : Core) (l : Nat), l < 4 →
    (∀ m, l < m → m < 4 → (loopOf k m).active = true → (loopOf k m).stop = k.pc ∧ (loopOf k m).shadow ≤ (loopOf k m).index + 1) →
    (loopOf k l).active = true →
    let k' := seqNext k
    (∀ m, l < m → m < 4 → loopOf k' m = { loopOf k m with active := false }) ∧
    (∀ m, m < l → (loopOf k l).stop ≠ k.pc ∨ (loopOf k l).index + 1 < (loopOf k l).shadow → loopOf k' m = loopOf k m) ∧
    ((loopOf k l).stop ≠ k.pc → k'.pc = (k.pc + 1) % 4096 ∧ loopOf k' l = loopOf k l) ∧
    ((loopOf k l).stop = k.pc → (loopOf k l).index + 1 < (loopOf k l).shadow →
      k'.pc = (loopOf k l).start ∧ loopOf k' l = { loopOf k l with index := (loopOf k l).index + 1 }) ∧
    ((loopOf k l).stop = k.pc → (loopOf k l).shadow ≤ (loopOf k l).index + 1 → loopOf k' l = { loopOf k l with active := false }) ∧
    { k' with loops := k.loops, pc := k.pc } = k

/-- R31, R33: a loop of count n ≥ 1 latches n, sets its index to 0 and goes on at the row after its own; one of count 0 with no loop active
goes on after its body. The count is the level's count register, or a general register. R32, R35, R38: setc writes a level's count
register alone; a skip whose condition holds opens a window, one whose condition does not hold opens none; done stops the task's fetch. -/
def Obligations.SequencerInstructions : Prop :=
  (∀ (s : State) (c : CoreId) (lvl : BitVec 2) (src : Bool) (gi : BitVec 4) (len : BitVec 12), canIssue s c = true →
      let k := startCore s c
      let n := if src then (gReg k gi.toNat).toNat else (loopOf k lvl.toNat).count
      loopFault k lvl src gi 0 len = none → Answers (.loop c lvl src gi 0 len) s fun t =>
        let k0 := getCore s c
        OnlyCore s t c ∧ { getCore t c with loops := k0.loops, pc := k0.pc } = k0 ∧
        (n ≠ 0 → (getCore t c).pc = (k0.pc + 1) % 4096 ∧ ∀ l, loopOf (getCore t c) l =
          if l = lvl.toNat then ⟨(loopOf k0 l).count, n, 0, (k0.pc + 1) % 4096, (k0.pc + len.toNat) % 4096, true⟩ else loopOf k0 l) ∧
        (n = 0 → (∀ l, (loopOf k0 l).active = false) → (getCore t c).pc = (k0.pc + len.toNat + 1) % 4096 ∧ (getCore t c).loops = k0.loops)) ∧
  (∀ (s : State) (c : CoreId) (lvl : BitVec 2) (cnt : BitVec 24) (gi : BitVec 4) (sense : Bool) (mask win : BitVec 6), canIssue s c = true →
      let g := gReg (startCore s c) gi.toNat
      let holds := if sense then g ≠ 0 else g = 0
      (Answers (.setc c lvl 0 cnt) s fun t =>
        OnlyCore s t c ∧ { getCore t c with loops := (getCore s c).loops } = getCore s c ∧
        ∀ l, loopOf (getCore t c) l =
          if l = lvl.toNat then { loopOf (getCore s c) l with count := cnt.toNat } else loopOf (getCore s c) l) ∧
      (win ≠ 0 → holds → Answers (.skip c gi sense mask 0 win) s
        (CoreBecomes s · c { getCore s c with skips := (getCore s c).skips ++ [⟨mask, win.toNat⟩] })) ∧
      (win ≠ 0 → ¬holds → Answers (.skip c gi sense mask 0 win) s (· = s)) ∧
      Answers (.done c 0) s (CoreBecomes s · c
        { getCore s c with status := .done, doneAt := some ((getCore s c).sched + 1) }))

/-- R39: an hlt halts the core with its reason when its condition holds, with 0x12 when the reason lies outside 0x90 to 0x9F, and changes
nothing when the condition does not hold. R36, R226, R254: with the X queue empty a step row takes the copies that begin the next step (g
registers, skip windows, the ring address that follows, the receive state of the connections) and the core holds for that step's launch;
else it halts with 0x65. -/
def Obligations.HltAndStep : Prop :=
  (∀ (s : State) (c : CoreId) (gi : BitVec 4) (sense : Bool) (reason : BitVec 8), canIssue s c = true → (getCore s c).status = .running →
      let g := gReg (startCore s c) gi.toNat
      let holds := if sense then g ≠ 0 else g = 0
      let valid := 0x90 ≤ reason.toNat ∧ reason.toNat ≤ 0x9F
      (valid → holds → Answers (.hlt c gi sense 0 reason) s (HaltsAtIssue s · c 0 reason.toNat)) ∧
      (valid → ¬holds → Answers (.hlt c gi sense 0 reason) s (· = s)) ∧
      (¬valid → Answers (.hlt c gi sense 0 reason) s (HaltsAtIssue s · c 0 0x12))) ∧
  (∀ (s : State) (c : CoreId), canIssue s c = true →
      let k := getCore s c
      (k.xq = [] → Answers (.step c 0) s fun t =>
        let k' := getCore t c
        OnlyCore s t c ∧ k'.status = .holding ∧ k'.toLaunch = some (k.step + 1) ∧ k'.step = k.step ∧ k'.g = k.g ∧ k'.skips = k.skips ∧
        k'.dmem = k.dmem ∧ k'.v = k.v ∧ k'.groups = k.groups ∧ k'.spad = k.spad ∧ k'.queues = k.queues ∧ k'.pc = (seqNext k).pc ∧
        ∃ p, k'.snaps = k.snaps ++ [p] ∧ p.step = k.step + 1 ∧ p.g = k.g ∧ p.skips = k.skips ∧ p.pc = k'.pc ∧ p.loops = k'.loops ∧
          p.conns = k.conns ∧ p.coupl = k.coupl ∧ p.sched = k.sched) ∧
      (k.xq ≠ [] → k.status = .running → Answers (.step c 0) s (HaltsAtIssue s · c 0 0x65)))

/-! ### The L slot and the scratchpad -/

/-- Table 2.8, R45, R46, Table 2.10: a load whose encoding and address are valid sets out for its register, four cycles after issue, following
the scratchpad until the next cycle starts: its data is then what the scratchpad holds. Nothing else changes but the count of a corrected
bit (R140). The hazard detector, which only observes, is not active. R46: a store reads its vector register as it stood at the start of
the cycle; its write waits for the engine write port, and the 512 bytes then stand at its unit address, every other byte of the scratchpad
as before. -/
def Obligations.LoadsAndStores : Prop :=
  (∀ (s : State) (c : CoreId) (ind : Bool) (kind : BitVec 3) (reg : BitVec 5) (gi : BitVec 4) (addr : BitVec 16),
      canIssue s c = true → detects s c = false →
      let k := startCore s c
      let now := (getCh s (chOf c)).sched
      let u := if ind then (gReg k gi.toNat + addr.setWidth 32).toNat else addr.toNat
      let n := if kind = 1 ∨ kind = 3 then 128 else if kind = 2 then 1 else 16
      let data := spadRead k u (n * 32) (now + 1)
      kind.toNat < 5 → (kind = 1 ∨ kind = 2 → reg = 0) → (kind = 3 ∨ kind = 4 → reg.toNat < 16) → (ind = false → gi = 0) →
      u ≤ 65535 → u % n = 0 → u / 128 < k.bound → segOn k u = true →
      let item : LItem := ⟨now + 4, kind.toNat, reg.toNat, some u, data, ⟨k.pc, k.sched, 2, 0, k.step⟩⟩
      let lands := fun (x : Core) => { x with lPipe := x.lPipe ++ [item] }
      Answers (.load c ind kind reg gi addr .clean) s (CoreBecomes s · c (lands (getCore s c))) ∧
      Answers (.load c ind kind reg gi addr .single) s (CoreBecomes s · c (lands (ecrBump 0x302 0 (getCore s c)))) ∧
      (kind = 4 → Answers (.accPreload c ind reg gi addr .clean) s (CoreBecomes s · c (lands (getCore s c)))) ∧
      (∀ x : Core, readLoad (now + 1) x item = { item with data := spadRead x u (n * 32) (now + 1) }) ∧
      ∀ (x : Core) (later : Nat), now + 1 < later → readLoad later x item = { item with unit := none }) ∧
  (∀ (s : State) (c : CoreId) (ind : Bool) (reg : BitVec 5) (gi : BitVec 4) (addr : BitVec 16),
      canIssue s c = true → detects s c = false →
      let k := startCore s c
      let u := if ind then (gReg k gi.toNat + addr.setWidth 32).toNat else addr.toNat
      let bs := bytesOf (vReg k reg.toNat)
      (ind = false → gi = 0) → u ≤ 65535 → u % 16 = 0 → u / 128 < k.bound → segOn k u = true → touchesHeld k 0 u 16 = false →
      Answers (.store c ind 0 reg gi addr) s (CoreBecomes s · c
        { getCore s c with stq := (getCore s c).stq ++ [⟨u, bs, ⟨k.pc, k.sched, 2, 0, k.step⟩⟩] }) ∧
      ∀ (x : Core), x.stq = [⟨u, bs, ⟨k.pc, k.sched, 2, 0, k.step⟩⟩] →
        let y := flushStores x
        (∀ a, memGet y.spad a = if x.base * 4096 + u * 32 ≤ a ∧ a < x.base * 4096 + u * 32 + bs.length
          then bs.getD (a - (x.base * 4096 + u * 32)) 0 else memGet x.spad a) ∧
        { y with spad := x.spad, rings := x.rings, stq := x.stq } = x)

/-- R247, Table 11.16: the hazard detector only observes: unless LDR_HAZARD_STOP makes it stop the core, what it finds changes no
channel, no job, no link, no command waiting and draws no free value. -/
def Obligations.HazardDetectorOnlyObserves : Prop :=
  ∀ (s : State) (c : CoreId) (slot : Nat) (srcs : List Src), dGet s 0x0600 3 ≠ 1 →
    let t := readHazards s c slot srcs
    t.ch = s.ch ∧ t.pending = s.pending ∧ t.free = s.free ∧ t.rowStart = s.rowStart ∧ t.hub.jobs = s.hub.jobs ∧ t.hub.ahn = s.hub.ahn ∧
      t.hub.jnl = s.hub.jnl ∧ t.hub.st = s.hub.st ∧ t.hub.time = s.hub.time ∧ dGet t 0x0600 3 = dGet s 0x0600 3

/-! ### The matrix engine -/

/-- R79, R90, R92, Tables 4.3 and 4.4: a valid mmx or mmxe takes its products of the registers as they stood at issue, occupies the
multiplier for 1 cycle, or for the 4, 8 or 16 of its pair, and reaches its accumulator 14 cycles after issue, 12 under T2. -/
def Obligations.MultiplyIssue : Prop :=
  ∀ (s : State) (c : CoreId) (w : BitVec 43), canIssue s c = true → detects s c = false →
    let k := startCore s c
    let now := (getCh s (chOf c)).sched
    let f := mulF w
    let v := mulVals k f
    let prods := v.2.map fun l => List.zipWith prodOf v.1 l
    let lat := if k.profile = 2 then 12 else 14
    let enters := fun (op : MOp) (busy opcode : Nat) (t : State) => ∃ chk : CheckInfo, CoreBecomes s t c
      { getCore s c with
        mPipe := (getCore s c).mPipe ++ [⟨now + lat, op, some chk, ⟨k.pc, k.sched, 3, opcode * 2 ^ 43 + w.toNat, k.step⟩⟩]
        busyTill := now + busy }
    (mulBad f false = false → (groupOf k (f.tgt / 4)).exact = false → k.busyTill ≤ now →
      Answers (.mmx c w) s (enters (.fast f.tgt (prods.map blockSum)) 1 1)) ∧
    (mulBad f true = false → (groupOf k (f.tgt / 4)).exact = true → k.busyTill ≤ now →
      Answers (.mmxe c w) s (enters (.exact (f.tgt / 4) prods)
        (if f.fmt = 0x7 ∨ f.fmt = 0x8 then 8 else if f.fmt = 0xB ∨ f.fmt = 0xC then 16 else 4) 2))

/-- R25, R45, Table 2.12: the conditions under which an L transfer halts its core at issue, with their reasons. R84, R86, R92: a multiply with
an invalid encoding, on a group of the other mode, or while the multiplier is occupied halts its core with 0x04; so do mclr, mimg, mchk
and mraw with a reserved bit set. -/
def Obligations.EngineFaults : Prop :=
  (∀ (s : State) (c : CoreId) (kind : BitVec 3) (reg : BitVec 5) (gi : BitVec 4) (addr : BitVec 16) (e : Ecc),
      canIssue s c = true → (getCore s c).status = .running →
      let k := startCore s c
      let a := addr.toNat
      let halts := fun (i : Instr) (reason : Nat) => Answers i s (HaltsAtIssue s · c 2 reason)
      (5 ≤ kind.toNat → halts (.load c false kind reg gi addr e) 0x03) ∧
      (kind.toNat = 1 ∨ kind.toNat = 2 → reg ≠ 0 → halts (.load c false kind reg gi addr e) 0x11) ∧
      (16 ≤ reg.toNat → halts (.accPreload c false reg gi addr e) 0x11) ∧
      (gi ≠ 0 → halts (.load c false 0 reg gi addr e) 0x08 ∧ halts (.store c false 0 reg gi addr) 0x08) ∧
      (1 ≤ kind.toNat → kind.toNat < 5 → halts (.store c false kind reg gi addr) 0x10) ∧
      (65535 < (gReg k gi.toNat + addr.setWidth 32).toNat →
        halts (.load c true 0 reg gi addr e) 0x22 ∧ halts (.store c true 0 reg gi addr) 0x22) ∧
      (a % 16 ≠ 0 → halts (.load c false 0 reg 0 addr e) 0x23 ∧ halts (.store c false 0 reg 0 addr) 0x23) ∧
      (a % 16 = 0 → k.bound ≤ a / 128 → halts (.load c false 0 reg 0 addr e) 0x21 ∧ halts (.store c false 0 reg 0 addr) 0x21) ∧
      (a % 16 = 0 → a / 128 < k.bound → segOn k a = false →
        halts (.load c false 0 reg 0 addr e) 0x26 ∧ halts (.store c false 0 reg 0 addr) 0x26) ∧
      (a % 16 = 0 → a / 128 < k.bound → segOn k a = true → touchesHeld k 0 a 16 = true → halts (.store c false 0 reg 0 addr) 0x2C)) ∧
  (∀ (s : State) (c : CoreId) (w : BitVec 43), canIssue s c = true → (getCore s c).status = .running →
      let k := startCore s c
      let now := (getCh s (chOf c)).sched
      let halts := fun (i : Instr) => Answers i s (HaltsAtIssue s · c 3 0x04)
      (mulBad (mulF w) false = true ∨ (groupOf k ((mulF w).tgt / 4)).exact = true ∨ now < k.busyTill → halts (.mmx c w)) ∧
      (mulBad (mulF w) true = true ∨ (groupOf k ((mulF w).tgt / 4)).exact = false ∨ now < k.busyTill → halts (.mmxe c w)) ∧
      (w.toNat % 2 ^ 40 ≠ 0 → halts (.mclr c w)) ∧ (w.toNat % 2 ^ 41 ≠ 0 → halts (.mimg c w)) ∧
      (w.toNat % 2 ^ 34 ≠ 0 → halts (.mchk c w)) ∧ (w.toNat % 2 ^ 36 ≠ 0 → halts (.mraw c w)))

/-- R87, R89, Table 4.3: mclr gives its group the mode it names and clears it at the update stage; mimg gives it exact mode and the 128
images of the lane operand register; a change of mode leaves the group in transition until then; every other group stands. -/
def Obligations.ClearAndImage : Prop :=
  ∀ (s : State) (c : CoreId) (j : BitVec 2) (m : Bool) (imgs : List ExImg), canIssue s c = true → detects s c = false →
    let k := startCore s c
    let due := (getCh s (chOf c)).sched + if k.profile = 2 then 12 else 14
    let enters := fun (op : MOp) (mode : Bool) (word : Nat) (t : State) =>
      OnlyCore s t c ∧ { getCore t c with groups := (getCore s c).groups, mPipe := (getCore s c).mPipe } = getCore s c ∧
      (getCore t c).mPipe = (getCore s c).mPipe ++ [⟨due, op, none, ⟨k.pc, k.sched, 3, word, k.step⟩⟩] ∧
      ∀ n, groupOf (getCore t c) n =
        if n = j.toNat then
          let g := groupOf (getCore s c) n
          { g with exact := mode, transEnd := if g.exact = mode then g.transEnd else due }
        else groupOf (getCore s c) n
    let wc := j.toNat * 2 ^ 41 + (if m then 1 else 0) * 2 ^ 40
    let wi := j.toNat * 2 ^ 41
    Answers (.mclr c (BitVec.ofNat 43 wc)) s (enters (.clear j.toNat m (ebaseOf k j.toNat)) m (3 * 2 ^ 43 + wc)) ∧
    (laneImages k = some imgs → Answers (.mimg c (BitVec.ofNat 43 wi)) s (enters (.image j.toNat imgs) true (6 * 2 ^ 43 + wi))) ∧
    (laneImages k = none → (getCore s c).status = .running → Answers (.mimg c (BitVec.ofNat 43 wi)) s (HaltsAtIssue s · c 3 0x04))

/-- R101: mchk stores the 64 residues of a vector register, bits [60:0] of each pair of elements modulo p, in a check slot. -/
def Obligations.CheckRowStore : Prop :=
  ∀ (s : State) (c : CoreId) (vs : BitVec 5) (n : BitVec 4), canIssue s c = true → detects s c = false →
    let w := BitVec.ofNat 43 (vs.toNat * 2 ^ 38 + n.toNat * 2 ^ 34)
    let v := vReg (startCore s c) vs.toNat
    Answers (.mchk c w) s fun t =>
      OnlyCore s t c ∧ { getCore t c with chkSt := (getCore s c).chkSt } = getCore s c ∧
      (∀ m, m ≠ n.toNat → tabGet (getCore t c).chkSt [] m = tabGet (getCore s c).chkSt [] m) ∧
      ∃ r, tabGet (getCore t c).chkSt [] n.toNat = r ∧ r.length = 64 ∧
        (v.length = 128 → ∀ i, i < 64 → r.getD i 0 =
          ((laneW v (2 * i)).toNat + (laneW v (2 * i + 1)).toNat * 2 ^ 32) % 2 ^ 61 % chkP)

/-- R68, R73, R87, R89, R90, R99, R103, R104: the M instruction due takes effect on its group alone, and the residues modulo 7 of what it
writes are stored with it; a multiply's verdict, with the residues its read compared, is judged 22 channel cycles later; no other part of
the core changes but its flags (with no flag trapped). -/
def Obligations.AccumulatorUpdate : Prop :=
  ∀ (s : State) (c : CoreId) (m : MItem),
    let k := getCore s c
    let now := schedNow (getCh s (chOf c))
    k.mPipe.filter (fun x => decide (x.due ≤ now)) = [m] → ecrGet k 0x006 = 0 → Answers (.accUpdate c) s fun t =>
      let k' := getCore t c
      let g := groupOf k m.op.group
      let g' := groupOf k' m.op.group
      OnlyCore s t c ∧ k'.mPipe = k.mPipe.filter (fun x => decide (now < x.due)) ∧
      { k' with mPipe := k.mPipe, groups := k.groups, verdicts := k.verdicts, ecr := k.ecr, stepFlags := k.stepFlags } = k ∧
      (∀ j, j ≠ m.op.group → groupOf k' j = groupOf k j) ∧ (∀ a, a ≠ 0x100 → a ≠ freshKey 0x100 → ecrGet k' a = ecrGet k a) ∧
      k'.verdicts = k.verdicts ++ (match m.check with
        | some i => [⟨(getCh s (chOf c)).cycles + 22, m.op.group, some i, updateRes g m.op, m.org⟩]
        | none => []) ∧
      (match m.op with
        | .fast a sums => fastAcc g' (a % 4) = List.zipWith (fun x b => BitVec.ofNat 32 (fastAdd x b.bits).bits) (fastAcc g (a % 4)) sums ∧
            (∀ n, n ≠ a % 4 → fastAcc g' n = fastAcc g n) ∧
            fastResOf g' (a % 4) = (fastAcc g' (a % 4)).map fun w => (w.toNat % 7, w.toNat % 7)
        | .exact _ prods =>
            g'.ex = List.zipWith (fun a l => ⟨(l.foldl (exAdd a.ebase) (a.acc, false, false)).1, a.ebase⟩) (exAccs g) prods ∧
            g'.exRes = g'.ex.map fun a => (a.acc.t % 7).toNat
        | .clear _ _ eb => (∀ n, fastAcc g' n = List.replicate 128 0) ∧ exAccs g' = List.replicate 128 ⟨ExAcc.reset, eb⟩ ∧
            g'.exRes = List.replicate 128 0
        | .image _ imgs => g'.ex = imgs ∧ g'.exRes = imgs.map fun a => (a.acc.t % 7).toNat)

/-- R103 to R105: the verdicts due whose lane sum agrees with the check lane's and whose residues agree, in hardware that makes no error, are
taken off the list and change nothing else. R103, R104, R105, R274: a verdict whose lane sum differs from the check lane's sets the CHECK
flag of its group and writes one fault signature, of kind 1 with the results C and L; one whose read met, in one lane, a residue off by an
error of the hardware writes one of kind 2 with the residue stored and the one computed. -/
def Obligations.CheckVerdicts : Prop :=
  (∀ (s : State) (c : CoreId),
      let k := getCore s c
      let now := (getCh s (chOf c)).cycles
      (∀ v ∈ k.verdicts, v.due ≤ now → (∀ r ∈ v.res, r.1 = r.2 ∧ r.2 < 7) ∧ ∀ i, v.info = some i → i.l % chkP = i.c) →
        Answers (.checkVerdict c 0 ⟨0, 0⟩) s (CoreBecomes s · c { k with verdicts := k.verdicts.filter fun v => decide (now < v.due) })) ∧
  (∀ (s : State) (c : CoreId) (v : Verdict) (i : CheckInfo) (disturb : BitVec 61),
      let k := getCore s c
      let now := (getCh s (chOf c)).cycles
      let one := fun (t : State) (kind resA resB : Nat) =>
        (getCore t c).verdicts = k.verdicts.filter (fun x => decide (now < x.due)) ∧
        (ecrGet (getCore t c) 0x100).getLsbD (4 * v.grp + 3) = decide (4 * v.grp + 3 < 32) ∧
        ∃ b : FSig, (getCh t (chOf c)).fsigs = (b :: (getCh s (chOf c)).fsigs).take 64 ∧
          fld b.bytes 22 1 = kind ∧ fld b.bytes 40 8 = resA % 2 ^ 64 ∧ fld b.bytes 48 8 = resB % 2 ^ 64
      k.verdicts.filter (fun x => decide (x.due ≤ now)) = [v] → v.info = some i → (∀ r ∈ v.res, r.1 = r.2 ∧ r.2 < 7) →
      (i.evaluated = true → (i.l + disturb.toNat) % chkP ≠ i.c → Answers (.checkVerdict c disturb ⟨0, 0⟩) s fun t =>
        one t 1 i.c ((i.l + disturb.toNat) % chkP)) ∧
      ∀ (e : Resid) (r : Nat × Nat), i.l % chkP = i.c → v.res[e.lane.toNat]? = some r → e.off ≠ 0 → e.off ≠ 7 →
        Answers (.checkVerdict c 0 e) s fun t => one t 2 r.1 ((r.2 + e.off.toNat) % 7))

/-- R94, R95, R97, R98, R104, Tables 3.5, 4.3 to 4.5: a valid mdrn sets out for its register or scratchpad unit 8 cycles after issue, 10 for a
block output, with each lane's value of its source (R69 for an exact one) converted once, to an element or to a block, by nearest-even or
by the lane's draw of its seed slot, when it counts MX_SRIDX, its flags, and the residues its read compared; a valid mraw sets out for
eight registers, in which lane i's image stands at bytes 32i to 32i + 31 of the row. The source and all else stand. R96, R99, R104: the
drain due lands in its register, in the lanes and bits its masks name, or at the engine write port, where it stands over the store of the
cycle; its SAT and NAN join the flags of its group (none trapped); a residue that an error of the hardware made differ is reported 22
cycles after the drain's issue; nothing else changes. -/
def Obligations.Drains : Prop :=
  (∀ (s : State) (c : CoreId) (w : BitVec 43), canIssue s c = true → detects s c = false →
      let k := startCore s c
      let now := (getCh s (chOf c)).sched
      let f := drnF w
      let g := groupOf k (f.src / 4)
      let ctl := (ecrGet k 0x10A).toNat
      let seed := (seedOf s k.job (ctl / 2 ^ 24 % 256)).getD 0
      let draw := fun i => cg64 seed k.step (0x4D000000 + ctl % 2 ^ 24) ((128 * (ecrGet k 0x10B).toNat + i) % 2 ^ 32)
      let rnd := fun i => if f.sr then srOf (draw i) else Rnd.rne
      let window := fun i => windowValue ((exAccs g).getD i ⟨ExAcc.reset, 0⟩).acc
      let src := fun i => if g.exact then
          (match (window i).1 with
            | some t => fvOf ⟨t, ((exAccs g).getD i ⟨ExAcc.reset, 0⟩).ebase⟩
            | none => .nan)
        else fv32 (laneW (fastAcc g (f.src % 4)) i)
      let block := decide (7 ≤ f.fmt ∧ f.fmt ≤ 9)
      let elem := fun i => elemOut f.fmt f.pos f.q (rnd i) (src i)
      let drained := fun (t : State) => OnlyCore s t c ∧
        { getCore t c with drains := (getCore s c).drains, ecr := (getCore s c).ecr } = getCore s c
      (drnFault s k now w = none → (g.exact = true → (exAccs g).length = 128) → (g.exact = false → (fastAcc g (f.src % 4)).length = 128) →
        Answers (.mdrn c w) s fun t => drained t ∧
        (∃ it : VItem, (getCore t c).drains = (getCore s c).drains ++ [it] ∧ it.vd = f.vd ∧ it.unit = (if f.dst then some f.unit else none) ∧
          it.due = now + (if block then 10 else 8) ∧ it.grp = some (f.src / 4) ∧
          it.org = ⟨k.pc, k.sched, 3, 4 * 2 ^ 43 + w.toNat, k.step⟩ ∧ it.res = (if g.exact then exactResOf g else fastResOf g (f.src % 4)) ∧
          (block = false → it.vals = (List.range 128).map (fun i => (elem i).1) ∧
            it.sat = (List.range 128).any (fun i => (elem i).2.1 || g.exact && (window i).2) ∧
            it.nan = (List.range 128).any fun i => (elem i).2.2) ∧
          (block = true → BlockLanes f.fmt f.pos f.spos (fun i => (src i, rnd i)) it.vals ∧
            it.sat = (BlockFlag f.fmt (fun i => (src i, rnd i)) (·.sat) || g.exact && (List.range 128).any fun i => (window i).2) ∧
            it.nan = BlockFlag f.fmt (fun i => (src i, rnd i)) (·.nan))) ∧
        (∀ a, ecrGet (getCore t c) a = if f.sr = true ∧ a = 0x10B then BitVec.ofNat 32 ((ecrGet k 0x10B).toNat + 1)
          else ecrGet (getCore s c) a)) ∧
      (mrawFault k now w = none → (exAccs (groupOf k (w.toNat / 2 ^ 41 % 4))).length = 128 → Answers (.mraw c w) s fun t => drained t ∧
        (getCore t c).ecr = (getCore s c).ecr ∧
        ∃ its : List VItem, (getCore t c).drains = (getCore s c).drains ++ its ∧ its.length = 8 ∧
          ∀ m it, its[m]? = some it → it.due = now + 8 ∧ it.vd = w.toNat / 2 ^ 36 % 32 + m ∧ it.unit = none ∧ it.sat = false ∧ it.nan = false ∧
            it.vals = (List.range 128).map fun n =>
              (BitVec.ofNat 32 (fld (imageBytes ((exAccs (groupOf k (w.toNat / 2 ^ 41 % 4))).getD (16 * m + n / 8) ⟨ExAcc.reset, 0⟩))
                (4 * (n % 8)) 4), BitVec.allOnes 32))) ∧
  (∀ (s : State) (c : CoreId) (it : VItem) (grp : Nat), detects s c = false →
      let k := getCore s c
      let now := schedNow (getCh s (chOf c))
      k.drains.filter (fun x => decide (x.due ≤ now)) = [it] → it.grp = some grp → ecrGet k 0x006 = 0 → (∀ r ∈ it.res, r.1 = r.2 ∧ r.2 < 7) →
      let k' := { k with drains := k.drains.filter fun x => decide (now < x.due) }
      let merged := List.zipWith (fun o x => (o &&& ~~~x.2) ||| (x.1 &&& x.2)) (vReg k it.vd) it.vals
      let lands := fun (t : State) =>
        (∀ r, vReg (getCore t c) r = if it.unit = none ∧ r = it.vd then merged else vReg k r) ∧
        (getCore t c).stq = (match it.unit with
          | some u => [⟨u, bytesOf (it.vals.map (·.1)), it.org⟩]
          | none => k.stq) ∧
        (∀ a, a ≠ 0x100 → a ≠ freshKey 0x100 → ecrGet (getCore t c) a = ecrGet k a) ∧
        ecrGet (getCore t c) 0x100 = ecrGet k 0x100 |||
          BitVec.ofNat 32 (((if it.sat then 1 else 0) + if it.nan then 4 else 0) * 2 ^ (4 * grp))
      let rest := fun (x : Core) => { x with v := k.v, stq := k.stq, ecr := k.ecr, stepFlags := k.stepFlags }
      Answers (.drainLanding c ⟨0, 0⟩) s (fun t => OnlyCore s t c ∧ lands t ∧ rest (getCore t c) = k') ∧
      ∀ (e : Resid) (r : Nat × Nat), it.res[e.lane.toNat]? = some r → e.off ≠ 0 → e.off ≠ 7 →
        Answers (.drainLanding c e) s fun t => OnlyCore s t c ∧ lands t ∧
          rest (getCore t c) = { k' with verdicts := k.verdicts ++
            [⟨(getCh s (chOf c)).cycles + (if isBlock (it.org.word / 2 ^ 35 % 16) then 12 else 14), grp, none,
              [(r.1, (r.2 + e.off.toNat) % 7)], it.org⟩] })

/-- R106: a ballast dummy instruction changes no state of the machine. -/
def Obligations.BallastChangesNothing : Prop :=
  ∀ (s : State) (c : CoreId), Answers (.ballastDummy c) s (· = s)

/-! ### The vector engine -/

/-- R109 to R115, Tables 5.2 and 5.4, INT32: in each lane below the length the result of the table's operation, whole; the lanes beyond
write nothing; 4 cycles after issue, 6 for vmul. -/
def Obligations.VectorInt32Forms : Prop :=
  ∀ (s : State) (c : CoreId) (w : BitVec 42), canIssue s c = true → detects s c = false → (vF w).ty = 2 →
    let k := startCore s c
    let f := vF w
    let a := laneW (vReg k (vIdx k f.va f.ixa f.ixl))
    let b := laneW (vB k f)
    let form := fun (i : Instr) (op lat : Nat) (val : Word → Word → Word) => vBad op f = false →
      Answers i s (SetsOutV s · c lat (vIdx k f.vd f.ixd f.ixl)
        fun n => if n < vLen k then (val (a n) (b n), BitVec.allOnes 32) else (0, 0))
    form (.vadd c w) 0x01 4 (fun x y => BitVec.ofInt 32 (x.toInt + y.toInt)) ∧
    form (.vsub c w) 0x02 4 (fun x y => BitVec.ofInt 32 (x.toInt - y.toInt)) ∧
    form (.vmul c w) 0x03 6 (fun x y => BitVec.ofInt 32 (x.toInt * y.toInt)) ∧
    form (.vmin c w) 0x06 4 (fun x y => BitVec.ofInt 32 (min x.toInt y.toInt)) ∧
    form (.vmax c w) 0x07 4 (fun x y => BitVec.ofInt 32 (max x.toInt y.toInt)) ∧
    form (.vabs c w) 0x08 4 (fun x _ => BitVec.ofInt 32 |x.toInt|) ∧
    form (.vneg c w) 0x09 4 (fun x _ => BitVec.ofInt 32 (-x.toInt)) ∧
    form (.vand c w) 0x0C 4 (fun x y => x &&& y) ∧
    form (.vor c w) 0x0D 4 (fun x y => x ||| y) ∧
    form (.vxor c w) 0x0E 4 (fun x y => x ^^^ y) ∧
    form (.vsll c w) 0x0F 4 (fun x y => BitVec.ofNat 32 (x.toNat * 2 ^ (y.toNat % 32))) ∧
    form (.vsrl c w) 0x10 4 (fun x y => BitVec.ofNat 32 (x.toNat / 2 ^ (y.toNat % 32))) ∧
    form (.vsra c w) 0x11 4 (fun x y => BitVec.ofInt 32 (x.toInt / 2 ^ (y.toNat % 32))) ∧
    form (.vmov c w) 0x12 4 (fun _ y => y) ∧
    (f.sub = 0 → form (.vcmp c w) 0x0A 4 (fun x y => if x = y then 1 else 0)) ∧
    (f.sub = 1 → form (.vcmp c w) 0x0A 4 (fun x y => if x = y then 0 else 1)) ∧
    (f.sub = 2 → form (.vcmp c w) 0x0A 4 (fun x y => if x.toInt < y.toInt then 1 else 0)) ∧
    (f.sub = 3 → form (.vcmp c w) 0x0A 4 (fun x y => if x.toInt ≤ y.toInt then 1 else 0)) ∧
    (f.sub = 4 → form (.vcmp c w) 0x0A 4 (fun x y => if y.toInt < x.toInt then 1 else 0)) ∧
    (f.sub = 5 → form (.vcmp c w) 0x0A 4 (fun x y => if y.toInt ≤ x.toInt then 1 else 0)) ∧
    (vBad 0x0B f = false → Answers (.vsel c w) s (SetsOutV s · c 4 (vIdx k f.vd f.ixd f.ixl)
      fun n => if n < vLen k ∧ b n ≠ 0 then (a n, BitVec.allOnes 32) else (0, 0)))

/-- R109, R110, Tables 5.2 and 5.4, FP32 and BF16: in each lane below the length the exact result rounded once, nearest-even, to the type,
BF16 in the half that the word names; 4 cycles after issue, 6 for a multiplication. -/
def Obligations.VectorFloatForms : Prop :=
  ∀ (s : State) (c : CoreId) (w : BitVec 42), canIssue s c = true → detects s c = false → (vF w).ty < 2 →
    let k := startCore s c
    let f := vF w
    let vd := vIdx k f.vd f.ixd f.ixl
    let x := fun n => fpIn f.ty f.hin (laneW (vReg k (vIdx k f.va f.ixa f.ixl)) n)
    let y := fun n => fpIn f.ty f.hin (laneW (vB k f) n)
    let d := fun n => fpIn f.ty f.hout (laneW (vReg k vd) n)
    let put := fun (v : FV) => if f.ty = 1 then place 16 (if f.hout then 16 else 0) (toF bf16 .rne v).bits
      else (BitVec.ofNat 32 (toF fp32 .rne v).bits, BitVec.allOnes 32)
    let form := fun (i : Instr) (op lat : Nat) (val : Nat → FV) => vBad op f = false →
      Answers i s (SetsOutV s · c lat vd fun n => if n < vLen k then put (val n) else (0, 0))
    form (.vadd c w) 0x01 4 (fun n => fvAdd (x n) (y n)) ∧
    form (.vsub c w) 0x02 4 (fun n => fvAdd (x n) (fvNeg (y n))) ∧
    form (.vmul c w) 0x03 6 (fun n => fvMul (x n) (y n)) ∧
    form (.vfma c w) 0x04 6 (fun n => fvAdd (fvMul (x n) (y n)) (d n)) ∧
    form (.vfnma c w) 0x05 6 (fun n => fvAdd (d n) (fvNeg (fvMul (x n) (y n)))) ∧
    form (.vabs c w) 0x08 4 (fun n => match x n with | .nan => .nan | .inf _ => .inf false | .fin _ m e => .fin false m e) ∧
    form (.vneg c w) 0x09 4 (fun n => fvNeg (x n)) ∧
    form (.vmov c w) 0x12 4 (fun n => y n) ∧
    form (.vmin c w) 0x06 4 (fun n => if (x n).isNan ∨ (y n).isNan then .nan else if fvLt (y n) (x n) then y n else x n) ∧
    form (.vmax c w) 0x07 4 (fun n => if (x n).isNan ∨ (y n).isNan then .nan else if fvLt (x n) (y n) then y n else x n) ∧
    (vBad 0x0A f = false → Answers (.vcmp c w) s (SetsOutV s · c 4 vd fun n =>
      if n < vLen k then (if fpRel f.sub (x n) (y n) then 1 else 0, BitVec.allOnes 32) else (0, 0)))

/-- R127, Tables 5.4 to 5.6, FP32: each function of the function set applied in every lane below the length, 16 cycles after issue, 14
under T2. -/
def Obligations.VectorFunctions : Prop :=
  ∀ (s : State) (c : CoreId) (w : BitVec 38), canIssue s c = true → detects s c = false →
    let k := startCore s c
    let form := fun (i : Instr) (code : Nat) =>
      let f := vF (BitVec.ofNat 42 (w.toNat * 16 + code))
      vBad 0x13 f = false → f.ty = 0 → Answers i s (SetsOutV s · c (if k.profile = 2 then 14 else 16) (vIdx k f.vd f.ixd f.ixl) fun n =>
        if n < vLen k then (BitVec.ofNat 32 (fnOf code (fv32 (laneW (vReg k (vIdx k f.va f.ixa f.ixl)) n))).bits, BitVec.allOnes 32)
        else (0, 0))
    form (.vfnExp2 c w) 0 ∧ form (.vfnLog2 c w) 1 ∧ form (.vfnReciprocal c w) 2 ∧ form (.vfnRsqrt c w) 3 ∧ form (.vfnTanh c w) 4 ∧
    form (.vfnSigmoid c w) 5 ∧ form (.vfnSilu c w) 6 ∧ form (.vfnGelu c w) 7 ∧ form (.vfnSin c w) 8 ∧ form (.vfnCos c w) 9

/-- R121, R122, INT32 sums: vred adds up each group's active lanes modulo 2^32, roots in elements 0 on; the prefix sum writes in each
active lane the sum of its group's lanes up to it. -/
def Obligations.VectorIntegerSums : Prop :=
  ∀ (s : State) (c : CoreId) (vd va : BitVec 5) (g : BitVec 3), canIssue s c = true → detects s c = false → g ≠ 0 →
    let k := startCore s c
    let n := 2 ^ g.toNat
    let a := fun i => if i < vLen k then laneW (vReg k va.toNat) i else 0
    let word := fun kind => BitVec.ofNat 42 (2 * 2 ^ 40 + vd.toNat * 2 ^ 35 + va.toNat * 2 ^ 30 + kind * 2 ^ 27 + g.toNat * 2 ^ 24)
    (vReg k va.toNat).length = 128 →
    Answers (.vred c (word 0)) s (SetsOutV s · c 8 vd.toNat fun i =>
      if i < 128 / n ∧ n * i < vLen k then (((List.range n).map fun j => a (n * i + j)).sum, BitVec.allOnes 32) else (0, 0)) ∧
    Answers (.vredPrefix c (word 5)) s (SetsOutV s · c 16 vd.toNat fun i =>
      if i < vLen k then (((List.range (i % n + 1)).map fun j => a (i / n * n + j)).sum, BitVec.allOnes 32) else (0, 0))

/-- R118, R119, R120, R124, R59, R65, Tables 5.3 and 5.4: vrand, vcvt, vbenc, vbpack and vbunpk set out for their register 4 cycles after
issue, vbenc 6, with the value, mask and flags of every lane: drawn, converted, encoded by blocks, packed, or unpacked to the split form or to
FP32; a drawing one counts VX_SRIDX. Of a vbunpk to one position for mantissa and scale the spec names no result (assumption log, 33). -/
def Obligations.VectorConversions : Prop :=
  ∀ (s : State) (c : CoreId) (w : BitVec 42), canIssue s c = true → detects s c = false →
    let k := startCore s c
    let now := (getCh s (chOf c)).sched
    let v := w.toNat
    let ctl := (ecrGet k 0x208).toNat
    let draw := fun i => cg64 ((vSeed s k).getD 0) k.step (0x56000000 + ctl % 2 ^ 24) ((128 * (ecrGet k 0x209).toNat + i) % 2 ^ 32)
    let rnd := fun (sr : Bool) i => if sr then srOf (draw i) else Rnd.rne
    let sets := fun (lat vd : Nat) (draws : Bool) (P : VItem → Prop) (t : State) => OnlyCore s t c ∧
      { getCore t c with vPipe := (getCore s c).vPipe, ecr := (getCore s c).ecr } = getCore s c ∧
      (∀ a, ecrGet (getCore t c) a = if draws = true ∧ a = 0x209 then ecrGet k 0x209 + 1 else ecrGet (getCore s c) a) ∧
      ∃ it : VItem, (getCore t c).vPipe = (getCore s c).vPipe ++ [it] ∧ it.due = now + lat ∧ it.vd = vd ∧ it.unit = none ∧ P it
    let lanes := fun (out : Nat → LaneOut) (it : VItem) => it.vals = (List.range 128).map (fun i => (out i).1) ∧
      it.sat = (List.range 128).any (fun i => (out i).2.1) ∧ it.nan = (List.range 128).any fun i => (out i).2.2
    let off := v / 2 ^ 15 % 512
    let size := if (blkF w).fmt = 9 then 49 else 33
    let width := (blockShape (blkF w).fmt).1
    let n := (blockShape (blkF w).fmt).2
    let pos := (blkF w).pos
    let spos := (blkF w).spos
    (vFault s k 0x14 w = none → Answers (.vrand c w) s (sets 4 (vF w).vd true (lanes fun i =>
      if i < vLen k then wholeLane (randVal (vF w).sub (draw i)) else noLane))) ∧
    (cvtFault s k w = none → (vReg k (v / 2 ^ 24 % 32)).length = 128 → Answers (.vcvt c w) s (sets 4 (v / 2 ^ 29 % 32) (v.testBit 19) (lanes fun i =>
      if i < vLen k then cvtLane (v / 2 ^ 38 % 16) (v / 2 ^ 34 % 16) (v / 2 ^ 22 % 4) (v / 2 ^ 20 % 4) (sint 8 (v / 2 ^ 11 % 256))
        (rnd (v.testBit 19) i) (laneW (vReg k (v / 2 ^ 24 % 32)) i) else noLane))) ∧
    ((vReg k (blkF w).va).length = 128 →
      let a := vReg k (blkF w).va
      let one := fun i => (fv32 (laneW a i), rnd (v.testBit 23) i)
      (bencFault s k w = none → Answers (.vbenc c w) s (sets 6 (blkF w).vd (v.testBit 23) fun it =>
        BlockLanes (blkF w).fmt pos spos one it.vals ∧ it.sat = BlockFlag (blkF w).fmt one (·.sat) ∧ it.nan = BlockFlag (blkF w).fmt one (·.nan))) ∧
      (packFault w false = none →
        let field := fun j => ((List.range n).map fun i => (laneW a (n * j + i)).toNat / 2 ^ (8 * pos) % 2 ^ width * 2 ^ (width * i)).sum
        let byte := fun y => if y % size = 0 then (laneW a (n * (y / size))).toNat / 2 ^ (8 * spos) % 256
          else field (y / size) / 256 ^ (y % size - 1) % 256
        Answers (.vbpack c w) s (sets 4 (blkF w).vd false fun it => it.vals.length = 128 ∧ it.sat = false ∧ it.nan = false ∧
          ∀ i x, it.vals[i]? = some x → ∀ j, j < 4 →
            let inside := decide (off ≤ 4 * i + j) && decide (4 * i + j < off + 128 / n * size)
            x.2.toNat / 256 ^ j % 256 = (if inside then 255 else 0) ∧
            x.1.toNat / 256 ^ j % 256 = if inside then byte (4 * i + j - off) else 0)) ∧
      (packFault w true = none →
        let scale := fun i => fld (bytesOf a) (off + i / n * size) 1
        let m := fun i => sint width (fld (bytesOf a) (off + i / n * size + 1) (size - 1) / 2 ^ (width * (i % n)) % 2 ^ width)
        Answers (.vbunpk c w) s (sets 4 (blkF w).vd false fun it =>
          (v.testBit 14 = true → lanes (fun i => convLane (toF fp32 .rne (blockElem width (scale i) (m i)))) it) ∧
          (v.testBit 14 = false → it.vals.length = 128 ∧ it.sat = false ∧ it.nan = false ∧ ∀ i x, it.vals[i]? = some x →
            x.2 = BitVec.ofNat 32 (255 * 2 ^ (8 * pos)) ||| BitVec.ofNat 32 (255 * 2 ^ (8 * spos)) ∧
            (pos ≠ spos → x.1 = BitVec.ofNat 32 (byteOfInt (m i) * 2 ^ (8 * pos) + scale i * 2 ^ (8 * spos)))))))

/-- R123: vtopk sets out for vd and vd + 1, 12 cycles after issue: in the lowest K elements the K first candidates that are not NaN, values
and indices, a larger value first, then a lower index; where there are fewer, the empty value and index. -/
def Obligations.VectorTopK : Prop :=
  ∀ (s : State) (c : CoreId) (w : BitVec 42), canIssue s c = true → detects s c = false → topkFault w = none →
    let k := startCore s c
    let v := w.toNat
    let n := bits v 24 6 + 1
    vLen k ≠ 0 → Answers (.vtopk c w) s fun t => ∃ (x y : VItem) (l : List Cand),
      CoreBecomes s t c { getCore s c with vPipe := (getCore s c).vPipe ++ [x, y] } ∧
      x.due = (getCh s (chOf c)).sched + 12 ∧ y.due = x.due ∧ x.vd = bits v 35 5 ∧ y.vd = bits v 35 5 + 1 ∧
      l.Perm ((topkCands k w).filter fun z => !(fv32 z.val).isNan) ∧
      (∀ (i j : Nat) (a b : Cand), i < j → l[i]? = some a → l[j]? = some b →
        fvLt (fv32 a.val) (fv32 b.val) = false ∧ (fvLt (fv32 b.val) (fv32 a.val) = false → a.idx.toNat ≤ b.idx.toNat)) ∧
      (∀ i, i < n → x.vals[i]? = some (((l[i]?).map Cand.val).getD 0xFF800000, BitVec.allOnes 32) ∧
        y.vals[i]? = some (((l[i]?).map Cand.idx).getD 0xFFFFFFFF, BitVec.allOnes 32)) ∧
      ∀ i, n ≤ i → i < 128 → x.vals[i]? = some (0, 0) ∧ y.vals[i]? = some (0, 0)

/-- R180 to R185, Tables 8.1 to 8.3: a valid parameter update of operands that are finite, with no lane frozen, sets out for vd 8 cycles
after issue (uadp 24, 22 under T2) with, in each lane below the length, its formula of Table 8.2 rounded once to FP32. -/
def Obligations.ParameterUpdates : Prop :=
  ∀ (s : State) (c : CoreId) (w : BitVec 42), canIssue s c = true → detects s c = false →
    let k := startCore s c
    let f := updF w
    let r := updRegs k f
    let h := fun n => fv32 (laneW (vReg k f.vh) n)
    let fine := fun (x : Word) => (fv32 x).bad = false
    (∀ i, i < 128 → fine (laneW r.1 i) ∧ fine (laneW r.2.1 i) ∧ fine (laneW r.2.2 i) ∧ (h i).bad = false) → f.fz = false →
    let p := fun n => fv32 (laneW r.1 n)
    let b := fun n => fv32 (laneW r.2.1 n)
    let x := fun n => fv32 (laneW r.2.2 n)
    let form := fun (i : Instr) (op lat : Nat) (val : Nat → FV) => updFault op w = none →
      Answers i s (SetsOutV s · c lat (vIdx k f.vd f.ixr f.ixl) fun n =>
        if n < vLen k then (BitVec.ofNat 32 (toF fp32 .rne (val n)).bits, BitVec.allOnes 32) else (0, 0))
    let less := fun (u v : FV) => fvAdd u (fvNeg v)
    form (.umom c w) 0x20 8 (fun n => fvAdd (fvMul (h 2) (p n)) (b n)) ∧
    form (.usgd c w) 0x21 8 (fun n => less (p n) (fvMul (h 0) (fvAdd (b n) (fvMul (h 1) (p n))))) ∧
    form (.uadm1 c w) 0x22 8 (fun n => fvAdd (fvMul (h 2) (p n)) (fvMul (h 3) (b n))) ∧
    form (.uadm2 c w) 0x23 8 (fun n => fvAdd (fvMul (h 4) (p n)) (fvMul (fvMul (h 5) (b n)) (b n))) ∧
    form (.uadp c w) 0x24 (if k.profile = 2 then 22 else 24) (fun n =>
      let q := fnRsqrt (round32 (fvAdd (fvMul (h 7) (x n)) (h 8))).fv
      less (p n) (fvMul (h 0) (fvAdd (fvMul (fvMul (h 6) (b n)) q.fv) (fvMul (h 1) (p n))))) ∧
    form (.ukst c w) 0x25 8 (fun n => fvAdd (fvMul (h 9) (p n)) (b n)) ∧
    form (.ukns c w) 0x26 8 (fun n => fvScale (less (.fin false (if (gReg k f.g).toNat = 128 * f.h + n then 5 else 0) 0) (p n)) (-2)) ∧
    form (.ukap c w) 0x27 8 (fun n => less (p n) (fvMul (h 0) (fvAdd (fvMul (h 10) (b n)) (fvMul (h 1) (p n)))))

/-- R28, R46, R88, Tables 2.8 and 4.1: the load due lands in the register its kind names and nowhere else; where a V result reaches its vector
register in that cycle, or an update its accumulator, it is discarded; those not due stay on their way. R115, R116, R130: the V result due
is written in the lanes and bits its masks name; every other register and all else stands (no flag set, none trapped). -/
def Obligations.ResultLandings : Prop :=
  (∀ (s : State) (c : CoreId) (i : LItem), detects s c = false →
      let k := getCore s c
      let now := schedNow (getCh s (chOf c))
      k.lPipe.filter (fun x => decide (x.due ≤ now)) = [i] →
      let k' := { k with lPipe := k.lPipe.filter fun x => decide (now < x.due) }
      let result := k.vPipe.any fun x => x.due == i.due && x.vd == i.reg
      (i.kind = 0 → result = false → Answers (.loadLanding c) s (CoreBecomes s · c (setV i.reg (wordsOf i.data) k'))) ∧
      (i.kind = 0 → result = true → Answers (.loadLanding c) s (CoreBecomes s · c k')) ∧
      (i.kind = 1 → Answers (.loadLanding c) s (CoreBecomes s · c { k' with laneOp := i.data })) ∧
      (i.kind = 2 → Answers (.loadLanding c) s (CoreBecomes s · c { k' with bcast := i.data })) ∧
      (i.kind = 3 → Answers (.loadLanding c) s (CoreBecomes s · c { k' with laneSt := tabSet k.laneSt i.reg i.data })) ∧
      (i.kind = 4 → updateMeets k i.due i.reg = true → Answers (.loadLanding c) s (CoreBecomes s · c k')) ∧
      (i.kind = 4 → updateMeets k i.due i.reg = false → (groupOf k (i.reg / 4)).exact = false → Answers (.loadLanding c) s fun t =>
        OnlyCore s t c ∧ { getCore t c with groups := k.groups, lPipe := k.lPipe } = k ∧
        fastAcc (groupOf (getCore t c) (i.reg / 4)) (i.reg % 4) = wordsOf i.data ∧
        ∀ j m, 4 * j + m ≠ i.reg → m < 4 → fastAcc (groupOf (getCore t c) j) m = fastAcc (groupOf k j) m)) ∧
  (∀ (s : State) (c : CoreId) (i : VItem), detects s c = false →
      let k := getCore s c
      let now := schedNow (getCh s (chOf c))
      k.vPipe.filter (fun x => decide (x.due ≤ now)) = [i] → i.sat = false → i.nan = false →
      Answers (.vResultLanding c false) s fun t =>
        OnlyCore s t c ∧ { getCore t c with v := k.v } = { k with vPipe := k.vPipe.filter fun x => decide (now < x.due) } ∧
        (∀ r, r ≠ i.vd → vReg (getCore t c) r = vReg k r) ∧
        vReg (getCore t c) i.vd = List.zipWith (fun o x => (o &&& ~~~x.2) ||| (x.1 &&& x.2)) (vReg k i.vd) i.vals)

/-- R56, R57, R60, Table 3.1: in every floating format the value of an encoding that is not NaN narrows back to that encoding, and sets no
flag. -/
def Obligations.NarrowingKeepsRepresentable : Prop :=
  ∀ f ∈ [fp32, bf16, fp16, e5m2, e4m3], ∀ v, v < 2 ^ f.width → decodeF f v ≠ .nan → toF f .rne (decodeF f v) = ⟨v, false, false⟩

/-- R60, Table 3.4: of a value within the format's range, nearest-even narrowing gives an encoding whose value no other finite encoding
comes closer to. -/
def Obligations.NarrowingIsNearest : Prop :=
  ∀ f ∈ [fp32, bf16, fp16, e5m2, e4m3], ∀ (neg : Bool) (m : Nat) (e : Int) (x : Nat) (d d' : Dy), x < 2 ^ f.width →
    (toF f .rne (.fin neg m e)).sat = false → (decodeF f (toF f .rne (.fin neg m e)).bits).dy = some d → (decodeF f x).dy = some d' →
    let q := min e (min d.exp d'.exp)
    |(dyOf neg m e).numAt q - d.numAt q| ≤ |(dyOf neg m e).numAt q - d'.numAt q|

/-! ### Stream rings -/

/-- R25, R47, R142, R143, R207: the conditions under which an S-slot instruction halts its core at issue, with their reasons. -/
def Obligations.StreamFaults : Prop :=
  ∀ (s : State) (c : CoreId) (ring : BitVec 5) (gi : BitVec 4) (greg : Bool) (disp : BitVec 18) (e : Ecc),
    canIssue s c = true → (getCore s c).status = .running →
    let k := startCore s c
    let g := ringOf k ring.toNat
    let now := (getCh s (chOf c)).sched
    let halts := fun (i : Instr) (reason : Nat) => Answers i s (HaltsAtIssue s · c 5 reason)
    (g.desc = none → halts (.sget c ring gi greg disp e) 0x2E ∧ halts (.sput c ring gi greg disp) 0x2E ∧
      halts (.sdue c ring 0 false 0) 0x2E ∧ halts (.srel c ring 0 false 0) 0x2E ∧ halts (.sdrain c ring 0 false 0) 0x2E) ∧
    (gi ≠ 0 ∨ greg = true ∨ disp ≠ 0 → halts (.sdue c ring gi greg disp) 0x08 ∧ halts (.srel c ring gi greg disp) 0x08 ∧
      halts (.sdrain c ring gi greg disp) 0x08) ∧
    ∀ d, g.desc = some d →
      (d.kind = 1 ∨ d.kind = 4 ∨ (slotOf g g.tail).st ≠ .free → halts (.sget c ring gi greg disp e) 0x27) ∧
      (d.kind ≠ 1 ∨ d.slots ≤ uncredited g now → halts (.sput c ring gi greg disp) 0x27) ∧
      (d.kind = 1 ∨ (slotOf g g.rel).st ≠ .due → halts (.srel c ring 0 false 0) 0x28) ∧
      (d.kind = 0 → (slotOf g g.tail).st = .free → regionAt (getCh s (chOf c)) k.job (itemAddr d (itemIndex k greg gi disp)) = none →
        halts (.sget c ring gi greg disp e) 0x29)

/-- R143, R145, R147, R149: sdue makes the head slot due six cycles on and, where its item has not landed, counts it and brakes the channel
with cause 1; srel frees the REL slot, on a multicast member telling the lead 32 cycles on; sdrain sets the credits of a put ring's puts
to return six cycles on, and does nothing to another ring. -/
def Obligations.StreamDueReleaseDrain : Prop :=
  ∀ (s : State) (c : CoreId) (ring : BitVec 5) (d : Desc), canIssue s c = true → detects s c = false →
    let r := ring.toNat
    let n := chOf c
    let q := getCh s n
    let g := ringOf (startCore s c) r
    let next := fun i => (i + 1) % max 1 d.slots
    let dueNow := updRing r fun h => { updSlot g.head (fun x => { x with st := .due, dueAt := q.sched + 6 }) h with head := next g.head }
    g.desc = some d →
    (d.kind ≠ 1 → d.kind ≠ 2 → (slotOf g g.head).st = .issued → landedBefore q (inCh c) r g.head = true →
      Answers (.sdue c ring 0 false 0) s (CoreBecomes s · c (dueNow (getCore s c)))) ∧
    (d.kind ≠ 1 → d.kind ≠ 2 → (slotOf g g.head).st = .issued → landedBefore q (inCh c) r g.head = false →
      Answers (.sdue c ring 0 false 0) s fun t => OnlyChannel s t n ∧ (∀ m, m ≠ c → getCore t m = getCore s m) ∧
        { getCh t n with cores := q.cores, brake := q.brake } = q ∧ (getCh t n).brake.isOn = true ∧
        (⟨1, inCh c, r, .landed (inCh c) r g.head⟩ : Cause) ∈ (getCh t n).brake.causes ∧
        (getCore t c).rings = (dueNow (getCore s c)).rings ∧
        (ecrGet (getCore s c) 0x383 ≠ 0xFFFFFFFF → ecrGet (getCore t c) 0x383 = ecrGet (getCore s c) 0x383 + 1)) ∧
    (d.kind = 1 ∨ d.kind = 2 → Answers (.sdue c ring 0 false 0) s (· = s)) ∧
    (d.kind = 0 → (slotOf g g.rel).st = .due → (slotOf g g.rel).released = false → Answers (.srel c ring 0 false 0) s
      (CoreBecomes s · c (updRing r (fun h => { updSlot g.rel (fun x => { x with st := .free }) h with rel := next g.rel }) (getCore s c)))) ∧
    (d.kind = 4 → (slotOf g g.rel).st = .due → (slotOf g g.rel).released = false → Answers (.srel c ring 0 false 0) s fun t =>
      OnlyChannel s t n ∧ (∀ m, m ≠ c → getCore t m = getCore s m) ∧
      (getCh t n).srels = q.srels ++ [⟨q.sched + 32, bits d.faddr 16 7, r, g.rel, inCh c⟩] ∧
      (slotOf (ringOf (getCore t c) r) g.rel).st = .free ∧ (ringOf (getCore t c) r).rel = next g.rel) ∧
    (d.kind ≠ 1 → Answers (.sdrain c ring 0 false 0) s (· = s)) ∧
    (d.kind = 1 → putsBefore q (inCh c) r = true → Answers (.sdrain c ring 0 false 0) s (CoreBecomes s · c
      (updRing r (fun h => { h with puts := h.puts.map fun p => if p.backAt = none then { p with backAt := some (q.sched + 6) } else p })
        (getCore s c))))

/-- R143, R145, R148, Table 9.2: an sget issues the tail slot and advances TAIL; its item comes from the channel's own GDDR7 no earlier than
900 cycles later, beat by beat, or, on a remote ring, from another core's scratchpad, performed 24 cycles later. R142, R147, R207: a valid
sput takes a credit of its ring and has its slot's beats read through the egress port from the next cycle on, after those of earlier sputs
and sends; its homes are those that the map gives. -/
def Obligations.StreamGetAndPut : Prop :=
  (∀ (s : State) (c : CoreId) (ring : BitVec 5) (gi : BitVec 4) (greg : Bool) (disp : BitVec 18) (d : Desc) (a : Target),
      canIssue s c = true → detects s c = false →
      let r := ring.toNat
      let n := chOf c
      let q := getCh s n
      let k := startCore s c
      let g := ringOf k r
      let addr := itemAddr d (itemIndex k greg gi disp)
      let issued := fun (t : State) (dueAt : Nat) =>
        (slotOf (ringOf (getCore t c) r) g.tail).st = .issued ∧ (slotOf (ringOf (getCore t c) r) g.tail).item = addr ∧
        (slotOf (ringOf (getCore t c) r) g.tail).dueAt = dueAt ∧ (slotOf (ringOf (getCore t c) r) g.tail).landed = none ∧
        (ringOf (getCore t c) r).tail = (g.tail + 1) % max 1 d.slots ∧ (∀ m, m ≠ r → ringOf (getCore t c) m = ringOf (getCore s c) m) ∧
        OnlyChannel s t n ∧ (∀ m, m ≠ c → getCore t m = getCore s m)
      g.desc = some d → (ringOf (getCore s c) r).desc = some d → sgetFault s c k r gi.toNat greg disp = none →
      (d.kind = 2 → Answers (.sget c ring gi greg disp .clean) s fun t => issued t (q.sched + 48) ∧
        ∃ x, (getCh t n).remotes = q.remotes ++ [x] ∧ x.at_ = q.sched + 24 ∧ x.reader = inCh c ∧ x.source = bits d.faddr 16 7 ∧
          x.unit = addr ∧ x.ring = r ∧ x.slot = g.tail) ∧
      (d.kind = 0 → (∃ x, translate s n k.job addr (itemBytes d) false false = .ok x ∧ x.dests = [a] ∧ x.alt = none) →
        a.dev = ownDev s → a.ch = n → a.tier = 1 → rangeThere s n 1 a.addr (itemBytes d) = true →
        Answers (.sget c ring gi greg disp .clean) s fun t => issued t 0 ∧
          ∃ bs : List Beat, (getCore t c).fill = (getCore s c).fill ++ bs ∧
            bs.map (·.writes) = (landBeats d (memRead q.gddr a.addr (itemBytes d))).map (fun l => l.map fun x =>
              (slotUnit d g.tail * 32 + x.1, x.2)) ∧
            ∀ b ∈ bs, q.cycles + 900 ≤ b.arrive)) ∧
  (∀ (s : State) (c : CoreId) (ring : BitVec 5) (gi : BitVec 4) (greg : Bool) (disp : BitVec 18) (d : Desc) (x : Trans),
      canIssue s c = true → detects s c = false →
      let r := ring.toNat
      let k := startCore s c
      let g := ringOf k r
      let now := (getCh s (chOf c)).sched
      let addr := itemAddr d (itemIndex k greg gi disp)
      g.desc = some d → d.kind = 1 → uncredited g now < d.slots →
      translate s (chOf c) k.job addr (slotBytes d) true false = .ok x → x.top = none → x.stale = [] →
      Answers (.sput c ring gi greg disp) s fun t => OnlyCore s t c ∧
        { getCore t c with rings := (getCore s c).rings, nextPut := (getCore s c).nextPut, egress := (getCore s c).egress } = getCore s c ∧
        (∀ m, m ≠ r → ringOf (getCore t c) m = ringOf (getCore s c) m) ∧ (ringOf (getCore t c) r).tail = (g.tail + 1) % max 1 d.slots ∧
        (∃ p, p ∈ (ringOf (getCore t c) r).puts ∧ p.id = (getCore s c).nextPut ∧ p.dests = x.dests ∧ p.backAt = none ∧ p.doneAt = none) ∧
        ∃ e, (getCore t c).egress = (getCore s c).egress ++ [e] ∧ e.next = now + 1 + ((getCore s c).egress.map (·.left)).sum ∧
          e.addr = d.region + g.tail * (slotBytes d / 32) ∧ e.left = (slotBytes d + 255) / 256 ∧ e.dests = x.dests ∧ e.faddr = addr ∧
          e.dur = x.dur)

/-- R135, R145, R272: the beat that takes the fill port writes its bytes at their place in the task's rows; the last beat of an item gives its
slot the landing cycle; at a fenced position what lands is discarded. -/
def Obligations.FillPort : Prop :=
  ∀ (s : State) (c : CoreId) (b : Beat) (lo : Nat) (bs : List Byte), detects s c = false →
    let q := getCh s (chOf c)
    let k := getCore s c
    nextBeat q k = some b → b.writes = [(lo, bs)] →
    ((b.kind = .recv ∨ ∃ ring slot seq isLast, b.kind = .item ring slot seq isLast) → k.grip ≠ .free →
      Answers (.fillBeat c) s (CoreBecomes s · c { k with fill := k.fill.erase b })) ∧
    (b.kind = .recv → k.grip = .free → Answers (.fillBeat c) s fun t => OnlyCore s t c ∧
      { getCore t c with spad := k.spad, fill := k.fill } = k ∧ (getCore t c).fill = k.fill.erase b ∧
      ∀ a, memGet (getCore t c).spad a = if k.base * 4096 + lo ≤ a ∧ a < k.base * 4096 + lo + bs.length
        then bs.getD (a - (k.base * 4096 + lo)) 0 else memGet k.spad a) ∧
    ∀ ring slot seq isLast, b.kind = .item ring slot seq isLast → k.grip = .free → (slotOf (ringOf k ring) slot).st ≠ .free →
      (slotOf (ringOf k ring) slot).seq = seq → (slotOf (ringOf k ring) slot).written = [] → Answers (.fillBeat c) s fun t =>
        OnlyCore s t c ∧ { getCore t c with spad := k.spad, fill := k.fill, rings := k.rings } = k ∧ (getCore t c).fill = k.fill.erase b ∧
        (slotOf (ringOf (getCore t c) ring) slot).landed = (if isLast then some q.cycles else (slotOf (ringOf k ring) slot).landed) ∧
        ∀ a, memGet (getCore t c).spad a = if k.base * 4096 + lo ≤ a ∧ a < k.base * 4096 + lo + bs.length
          then bs.getD (a - (k.base * 4096 + lo)) 0 else memGet k.spad a

/-- R147, R157, R195, R255: the egress port reads one beat of 256 bytes of a transfer with more to come; a put that its channel's GDDR7
accepts is written there and counted at its ring, and of the dictionary only the count of corrected bursts may rise (assumption log, 99); a
durable put that reaches the siding waits there with its job and step. -/
def Obligations.EgressAndSiding : Prop :=
  ∀ (s : State) (c : CoreId), detects s c = false →
    let q := getCh s (chOf c)
    let k := getCore s c
    (∀ e, k.egress = [e] → 2 ≤ e.left → e.next ≤ schedNow q → k.egQueue + 256 ≤ 65536 → e.dests.all (fun t => t.tier != 0) = true →
      Answers (.egressBeat c .clean) s (CoreBecomes s · c { k with
        egQueue := k.egQueue + 256
        egress := [{ e with next := e.next + 1, addr := e.addr + 8, left := e.left - 1, data := e.data ++ spadRead k e.addr 256 e.next }] })) ∧
    (∀ p a, k.putFly = [p] → p.dur = false → p.due ≤ q.cycles → p.dests = [a] → a.tier = 1 → rangeThere s (chOf c) 1 a.addr p.data.length = true →
      Answers (.sputComplete c) s fun t => OnlyChannel s { t with dict := s.dict } (chOf c) ∧ (∀ m, m ≠ c → getCore t m = getCore s m) ∧
        (∀ i sub, i < 65536 → sub < 256 → (i, sub) ≠ (cIdx (chOf c) 0x200, 3) → dGet t i sub = dGet s i sub) ∧
        { getCh t (chOf c) with gddr := q.gddr, cores := q.cores } = q ∧
        (∀ x, memGet (getCh t (chOf c)).gddr x =
          if a.addr ≤ x ∧ x < a.addr + p.data.length then p.data.getD (x - a.addr) 0 else memGet q.gddr x) ∧
        getCore t c = putAccepted q.cycles p.ring p.id { k with putFly := [] }) ∧
    ∀ (ch : ChId) (n : Nat) (p : PutFly), (getCh s ch.toNat).cores = [(n, { k with putFly := [p] })] → p.dur = true →
      p.due ≤ (getCh s ch.toNat).cycles → (getCh s ch.toNat).sideUsed + p.data.length ≤ 16777216 →
      Answers (.sidingEntry ch) s fun t => OnlyChannel s t ch.toNat ∧
        (getCh t ch.toNat).siding = (getCh s ch.toNat).siding ++ [⟨k.job, p.org.step, n, p.org, p.faddr, p.dests, p.msg, p.data⟩] ∧
        (getCh t ch.toNat).sideUsed = (getCh s ch.toNat).sideUsed + p.data.length

/-- R148, R149, R138: a remote read takes 64 bytes of its source for the reader's fill port 16 cycles later (the return time is the model's
choice, assumption log 15); a remote slot checked and landed becomes due; a member's release frees the lead's slot once every member's has
come; a segment whose count ends takes its next state and, powered up, reads zero. -/
def Obligations.RemoteReadsAndSegments : Prop :=
  ∀ (s : State) (c : CoreId), detects s c = false →
    let q := getCh s (chOf c)
    let k := getCore s c
    let now := schedNow q
    (∀ f d, q.remotes = [f] → f.source = inCh c → f.at_ ≤ now → remoteFault k f.unit = none → f.reader ≠ inCh c →
      (∀ x, detects s x = false) → (ringOf (coreOf q f.reader) f.ring).desc = some d → d.kind = 2 →
      Answers (.remoteRead c .clean) s fun t => OnlyChannel s t (chOf c) ∧ (getCh t (chOf c)).remotes = [] ∧ getCore t c = k ∧
        ∃ b, (coreOf (getCh t (chOf c)) f.reader).fill = (coreOf q f.reader).fill ++ [b] ∧ b.arrive = q.cycles + 16 ∧
          b.writes = [(slotUnit d f.slot * 32, padTo 64 (memRead k.spad (spadAddr k f.unit) 64))]) ∧
    (∀ r n d, remoteChecks now k = [(r, n)] → (ringOf k r).desc = some d → landedBefore q (inCh c) r n = true →
      Answers (.remoteRingCheck c) s (CoreBecomes s · c
        (updRing r (fun g => { updSlot n (fun y => { y with st := .due }) g with head := (n + 1) % max 1 d.slots }) k))) ∧
    (∀ x d, q.srels = [x] → x.lead = inCh c → x.due ≤ now → (ringOf k x.ring).desc = some d →
      (∀ m ∈ itemCores (inCh c) d, m = x.member ∨ m ∈ (slotOf (ringOf k x.ring) x.slot).freed) →
      Answers (.memberSrelArrival c) s fun t => OnlyChannel s t (chOf c) ∧ (getCh t (chOf c)).srels = [] ∧
        (slotOf (ringOf (getCore t c) x.ring) x.slot).st = .free ∧ (slotOf (ringOf (getCore t c) x.ring) x.slot).freed = []) ∧
    (∀ n g, k.segs = [(n, g)] → g.till < now → g.st = .zeroing → g.down = false → Answers (.segmentStateTimeout c) s fun t =>
      OnlyCore s t c ∧ { getCore t c with segs := k.segs, spad := k.spad } = k ∧ (segOf (getCore t c) n).st = .on ∧
      ∀ a, memGet (getCore t c).spad a = if n * 262144 ≤ a ∧ a < n * 262144 + 262144 then 0 else memGet k.spad a) ∧
    (∀ n g, k.segs = [(n, g)] → g.till < now → g.st = .shutdown → Answers (.segmentStateTimeout c) s fun t =>
      OnlyCore s t c ∧ (segOf (getCore t c) n).st = .off ∧ (getCore t c).spad = k.spad)

/-! ### Messages and synchronisation -/

/-- R48, R154, R155, R156, R157, R162, R163, R172, Table 2.11: with the X issue queue empty an X instruction executes in its issue cycle, and
its entry leaves: what each of the seven does. A held head does the same when it is released. R48, R162: a strict receive that waited
completes in the cycle its message is there, based on the cycle of the brake's check; a held signal or couple executes once the head is
its own. -/
def Obligations.XInstructions : Prop :=
  (∀ (s : State) (c : CoreId), canIssue s c = true → detects s c = false →
      let n := chOf c
      let q := getCh s n
      let x := getCore s c
      let k := startCore s c
      let ran := fun (y : Core) => { y with xq := [], xRan := q.sched + 1, xHeld := false }
      let at_ := fun (w : Nat) => originOf k 6 w
      let others := fun (t : State) => OnlyChannel s t n ∧ ∀ m, m ≠ c → getCore t m = getCore s m
      x.status = .running → x.xq = [] → x.xRan ≠ q.sched + 1 → x.xHold ≤ q.sched → k.xq = [] →
      (∀ (conn : BitVec 6) (unit : BitVec 16) (size : BitVec 3) (e : Conn), connOf k conn.toNat = some e → connOf x conn.toNat = some e →
        e.role = 0 → e.isOpen = true → size.toNat ≤ e.size → unit.toNat % 16 = 0 →
        (∀ u, unit.toNat ≤ u → u < unit.toNat + 16 * (size.toNat + 1) → u / 128 < k.bound ∧ segOn k u = true) →
        Answers (.send c conn true (BitVec.ofNat 21 (size.toNat * 2 ^ 18 + unit.toNat))) s fun t => OnlyCore s t c ∧
          (∃ m : Msg, m.type = 0 ∧ m.dst = peerOf e ∧ m.src = ownDev s * 512 + c.toNat ∧ m.entry = conn.toNat ∧ m.gen = e.gen ∧
            m.queue = e.queue ∧ m.seq = e.seq ∧ m.sidx = e.hcount ∧
            (getCore t c).egress = x.egress ++ [⟨q.sched + 1 + egressQ x, issueOrder s c, 0, 0, unit.toNat, 2 * (size.toNat + 1), [], [], 0, false,
              some m, at_ (2 ^ 28 + conn.toNat * 2 ^ 22 + 1 * 2 ^ 21 + (size.toNat * 2 ^ 18 + unit.toNat))⟩]) ∧
          connOf (getCore t c) conn.toNat = some { e with seq := (e.seq + 1) % 65536 } ∧
          (∀ m, m ≠ conn.toNat → connOf (getCore t c) m = connOf x m) ∧ (getCore t c).xq = []) ∧
      (∀ (qn : BitVec 4) (vd : BitVec 5) (e : Conn) (cyc : Nat) (m : Msg) (r : List (Nat × Msg)), endsOf k qn.toNat = [e] →
        endsOf x qn.toNat = [e] → e.role = 1 → (queueOf x qn.toNat).msgs = (cyc, m) :: r → cyc < q.cycles → m.payload.length = 512 →
        Answers (.recv c qn false vd 0 0) s fun t => OnlyCore s t c ∧
          (getCore t c).lPipe = x.lPipe ++ [⟨q.sched + 4, 0, vd.toNat, none, m.payload, at_ (2 * 2 ^ 28 + qn.toNat * 2 ^ 24 + vd.toNat * 2 ^ 18)⟩] ∧
          (queueOf (getCore t c) qn.toNat).msgs = r ∧ (∀ i, i ≠ qn.toNat → queueOf (getCore t c) i = queueOf x i) ∧
          (getCore t c).xq = [] ∧ (getCore t c).v = x.v ∧ (getCore t c).g = x.g) ∧
      (∀ (mask : BitVec 16) (vd : BitVec 5) (gi : BitVec 4) (qn : Nat) (e : Conn) (cyc : Nat) (m : Msg) (r : List (Nat × Msg)),
        (∀ i, mask.getLsbD i = true → endsOf k i ≠ []) → mask.getLsbD qn = true → (∀ i, i < qn → mask.getLsbD i = true →
          queuePresent q x i = false) → endsOf x qn = [e] → e.role = 1 → (queueOf x qn).msgs = (cyc, m) :: r → cyc < q.cycles →
        m.payload.length = 512 → Answers (.xSel c mask false false vd gi 0) s fun t => OnlyCore s t c ∧ (getCore t c).xLast = some qn ∧
          (queueOf (getCore t c) qn).msgs = r ∧ ∃ i : LItem, (getCore t c).lPipe = x.lPipe ++ [i] ∧ i.due = q.sched + 4 ∧ i.reg = vd.toNat ∧
            i.data = m.payload) ∧
      (∀ (obj : BitVec 12) (gi : BitVec 4) (mode : Bool), granted s n k obj.toNat = true → Answers (.wait c obj gi mode 0) s fun t => others t ∧
        (∃ o, (getCh t n).syncFly = q.syncFly ++ [⟨q.cycles + 16, obj.toNat, inCh c, .wait (gReg k gi.toNat).toNat mode, o⟩] ∧
          (getCore t c).xq = [⟨.wait obj.toNat (gReg k gi.toNat).toNat mode, true, o⟩]) ∧
        (getCore t c).xHeld = true ∧ (getCore t c).g = x.g) ∧
      (∀ (obj : BitVec 12) (inc : BitVec 16), granted s n k obj.toNat = true → inc ≠ 0 → Answers (.signal c obj inc) s fun t => others t ∧
        getCore t c = ran x ∧ { getCh t n with cores := q.cores, syncFly := q.syncFly } = q ∧
        ∃ o, (getCh t n).syncFly = q.syncFly ++ [⟨q.cycles + 16, obj.toNat, inCh c, .signal inc.toNat, o⟩]) ∧
      (∀ (conn : BitVec 6) (e : Conn), connOf k conn.toNat = some e → connOf x conn.toNat = some e → e.role ≠ 0 →
        Answers (.couple c conn 0) s (CoreBecomes s · c (updConn conn.toNat (fun e => { e with isOpen := true }) (ran x))) ∧
        Answers (.uncouple c conn 0) s (CoreBecomes s · c (updConn conn.toNat (fun e => { e with isOpen := false }) (ran x)))) ∧
      (∀ (conn : BitVec 6) (e : Conn), connOf k conn.toNat = some e → connOf x conn.toNat = some e → e.role = 0 → e.isOpen = false →
        e.peerk = false → x.egress = [] → addrHere s (peerOf e) = true → chOf (addrCore (peerOf e)) = n →
        Answers (.couple c conn 0) s fun t => others t ∧
          connOf (getCore t c) conn.toNat = some { e with gen := (e.gen + 1) % 256, seq := 0, isOpen := true, refused := false } ∧
          ∃ m : Msg, (getCh t n).msgFly = q.msgFly ++ [⟨q.cycles + 31, true, none, m⟩] ∧ m.type = 1 ∧ m.src = addrOf s c ∧ m.dst = peerOf e ∧
            m.entry = conn.toNat ∧ m.gen = (e.gen + 1) % 256 ∧ m.queue = e.queue) ∧
      ∀ (conn : BitVec 6) (vs : BitVec 5) (e : Conn), connOf k conn.toNat = some e → connOf x conn.toNat = some e → e.role = 0 →
        e.isOpen = true → e.peerk = false → addrHere s (peerOf e) = true → chOf (addrCore (peerOf e)) = n →
        Answers (.send c conn false (BitVec.ofNat 21 (vs.toNat * 2 ^ 16))) s fun t => others t ∧
          connOf (getCore t c) conn.toNat = some { e with seq := (e.seq + 1) % 65536 } ∧
          ∃ m : Msg, (getCh t n).msgFly = q.msgFly ++ [⟨q.cycles + 31, true, none, m⟩] ∧ m.type = 0 ∧ m.src = addrOf s c ∧ m.dst = peerOf e ∧
            m.entry = conn.toNat ∧ m.gen = e.gen ∧ m.queue = e.queue ∧ m.seq = e.seq ∧ m.sidx = e.hcount ∧
            m.payload = bytesOf (vReg k vs.toNat)) ∧
  (∀ (s : State) (c : CoreId) (o : Origin) (r : List XEntry),
      let n := chOf c
      let q := getCh s n
      let x := getCore s c
      brakeNow q = false → q.st = .serving → x.status = .running → x.xRan ≠ q.sched + 1 → x.xHold ≤ q.sched →
      (∀ obj inc, x.xWait = none → x.xq = ⟨.signal obj inc, false, o⟩ :: r → Answers (.xHeadRelease c) s fun t =>
        getCore t c = { x with xq := r, xRan := q.sched + 1, xHeld := false } ∧
        (getCh t n).syncFly = q.syncFly ++ [⟨q.cycles + 16, obj, inCh c, .signal inc, o⟩]) ∧
      (∀ (qn vd cyc : Nat) (e : Conn) (m : Msg) (l : List (Nat × Msg)) (b : Bool), x.xq = [] → x.xWait = some ⟨.recv qn false vd 0, b, o⟩ →
        endsOf x qn = [e] → e.role = 1 → (queueOf x qn).msgs = (cyc, m) :: l → cyc < q.cycles → m.payload.length = 512 →
        Answers (.xHeadRelease c) s fun t => OnlyCore s t c ∧ (getCore t c).xWait = none ∧ (queueOf (getCore t c) qn).msgs = l ∧
          (getCore t c).lPipe = x.lPipe ++ [⟨q.sched - 1 + 4, 0, vd, none, m.payload, o⟩]) ∧
      ∀ obj thr mode, x.xWait = none → x.xq = ⟨.wait obj thr mode, true, o⟩ :: r →
        Answers (.xHeadRelease c) s (CoreBecomes s · c { x with xHeld := true }))

/-- R154, R155, R156, R159, R160, R313, Table 7.3: what a message or marker does on reaching its core. A data message that an open coupling's
record admits, with a slot free, joins its queue with the cycle it enters in, and the record notes its SEQ; with no slot free it is
refused FULL, with no coupling CLOSED, a repeat is discarded; a COUPLE marker adds a record, an UNCOUPLE deletes it; a refusal is counted
at a lenient end, which CLOSED closes, and halts a strict one. R166, R167, R168, R73: a contribution whose round its slot expects waits in
the slot with its sender's index; its turn come, a unit of FP32 elements folds a cycle, each sum the two-term sum of R73, and the fold of
the last index makes the slot READY. -/
def Obligations.MessagesAndHoppers : Prop :=
  (∀ (s : State) (c : CoreId) (f : MsgFly),
      let n := chOf c
      let q := getCh s n
      let x := getCore s c
      let m := f.msg
      let only := fun (t : State) => OnlyChannel s t n ∧ ∀ d, d ≠ c → getCore t d = getCore s d
      let gone := fun (t : State) => { getCh t n with cores := q.cores } = { q with msgFly := [] }
      let core := fun (t : State) => { getCore t c with rxFree := x.rxFree, rxDie := x.rxDie, queues := x.queues }
      let refused := fun (type : Nat) (t : State) => only t ∧ core t = x ∧ (∀ i, queueOf (getCore t c) i = queueOf x i) ∧ (getCh t n).msgFly =
        [⟨q.cycles + 32, true, none, { m with type := type, src := m.dst, dst := m.src, digest := none, payload := [] }⟩]
      let turn := (f.enters = none → x.rxDie ≤ q.cycles) ∧ ∀ e ∈ x.queues,
        (∀ p ∈ e.2.msgs, p.1 < q.cycles ∨ fromDie p.2 = true) ∧ ∀ h ∈ e.2.slots, ∀ w ∈ h.2.wait, w.entered < q.cycles ∨ fromDie w.msg = true
      q.msgFly = [f] → f.due ≤ q.cycles → inCh (addrCore m.dst) = inCh c → addrHere s m.src = true → chOf (addrCore m.src) = n →
      m.fromNode = false →
      (m.type = 0 → f.same = true → turn → m.payload.length = 512 → q.st = .serving → x.status = .running → (queueOf x m.queue).shut = false →
        ∀ e, endsOf x m.queue = [e] → e.role = 1 →
        (∀ r, couplingFor x m = some r → r.last = none → x.coupl = [r] → (queueOf x m.queue).reading = none →
          (queueOf x m.queue).msgs.length < e.depth + 1 → Answers (.messageArrival c) s fun t => only t ∧ gone t ∧
            (queueOf (getCore t c) m.queue).msgs = (queueOf x m.queue).msgs ++ [(f.enters.getD q.cycles, m)] ∧
            (∀ i, i ≠ m.queue → queueOf (getCore t c) i = queueOf x i) ∧ (getCore t c).coupl = [{ r with last := some m.seq }] ∧
            { core t with coupl := x.coupl } = x) ∧
        (∀ r, couplingFor x m = some r → r.last = none → (queueOf x m.queue).reading = none →
          (queueOf x m.queue).msgs.length = e.depth + 1 → Answers (.messageArrival c) s (refused 3)) ∧
        (couplingFor x m = none → Answers (.messageArrival c) s (refused 4)) ∧
        ∀ r l, couplingFor x m = some r → r.last = some l → (l + 65536 - m.seq) % 65536 ≤ 32768 →
          Answers (.messageArrival c) s fun t => only t ∧ gone t ∧ core t = x ∧ ∀ i, queueOf (getCore t c) i = queueOf x i) ∧
      (m.type = 1 → ∀ via, admitting s x m = some via → q.st = .serving → x.status = .running → (queueOf x m.queue).shut = false →
        x.coupl.length < 512 → Answers (.coupleMarkerArrival c) s fun t => only t ∧ gone t ∧
          getCore t c = { x with coupl := x.coupl ++ [⟨m.src, m.entry, m.gen, m.queue, via, none⟩] }) ∧
      (m.type = 1 → admitting s x m = none ∨ 512 ≤ x.coupl.length → Answers (.coupleMarkerArrival c) s (refused 4)) ∧
      (m.type = 2 → Answers (.uncoupleMarkerArrival c) s fun t => only t ∧ gone t ∧
        getCore t c = { x with coupl := x.coupl.filter fun r => !(r.src == m.src && r.entry == m.entry && r.gen == m.gen) }) ∧
      (∀ e, connOf x m.entry = some e → e.strict = false → x.conns = [(m.entry, e)] →
        (m.type = 3 → bits (ecrGet x 0x3C5).toNat 0 16 ≠ 0xFFFF → Answers (.refusalArrival c) s fun t => only t ∧ gone t ∧
          ecrGet (getCore t c) 0x3C5 = ecrGet x 0x3C5 + 1 ∧ { getCore t c with ecr := x.ecr } = x) ∧
        (m.type = 4 → e.gen = m.gen → bits (ecrGet x 0x3C5).toNat 16 16 ≠ 0xFFFF → Answers (.refusalArrival c) s fun t => only t ∧ gone t ∧
          ecrGet (getCore t c) 0x3C5 = ecrGet x 0x3C5 + 0x10000 ∧
          connOf (getCore t c) m.entry = some { e with isOpen := false, refused := e.isOpen || e.refused })) ∧
      ∀ e, connOf x m.entry = some e → e.strict = true → f.same = true → x.status = .running → brakeNow q = false → x.pendHalt = none →
        (m.type = 3 → Answers (.refusalArrival c) s fun t => only t ∧ gone t ∧
          getCore t c = { x with pendHalt := some ⟨m.org.cyc, 0x41, true, m.org.slot, m.org.pc⟩ }) ∧
        (m.type = 4 → Answers (.refusalArrival c) s fun t => only t ∧ gone t ∧
          getCore t c = { x with pendHalt := some ⟨m.org.cyc, 0x42, true, m.org.slot, m.org.pc⟩ })) ∧
  (∀ (s : State) (c : CoreId) (e : Conn),
      let n := chOf c
      let q := getCh s n
      let x := getCore s c
      let el := fun (b : List Byte) i => BitVec.ofNat 32 (fld b (4 * i) 4)
      (∀ (f : MsgFly) (r : Coupling), q.msgFly = [f] → f.due ≤ q.cycles → f.same = true →
        (f.enters = none → x.rxDie ≤ q.cycles) → (∀ e ∈ x.queues, (∀ p ∈ e.2.msgs, p.1 < q.cycles) ∧
          ∀ h ∈ e.2.slots, ∀ w ∈ h.2.wait, w.entered < q.cycles) → f.msg.type = 0 → f.msg.fromNode = false →
        f.msg.payload.length = 512 → inCh (addrCore f.msg.dst) = inCh c → endsOf x f.msg.queue = [e] → e.role = 2 → e.digest = false →
        couplingFor x f.msg = some r → r.last = none → q.st = .serving → x.status = .running → (queueOf x f.msg.queue).shut = false →
        (queueOf x f.msg.queue).reading = none →
        let i := f.msg.seq % (e.depth + 1)
        let h := hslotOf (queueOf x f.msg.queue) i
        h.expect = f.msg.seq → f.msg.sidx ≤ e.hcount → f.msg.sidx ∉ h.seen → f.msg.sidx = h.folded →
        Answers (.hopperContribution c 0) s fun t => OnlyChannel s t n ∧ (∀ d, d ≠ c → getCore t d = getCore s d) ∧ (getCh t n).msgFly = [] ∧
          (hslotOf (queueOf (getCore t c) f.msg.queue) i).seen = h.seen ++ [f.msg.sidx] ∧
          (hslotOf (queueOf (getCore t c) f.msg.queue) i).wait = h.wait ++ [⟨f.enters.getD q.cycles, false, f.msg⟩] ∧
          (hslotOf (queueOf (getCore t c) f.msg.queue) i).folded = h.folded) ∧
      ∀ (qn i : Nat) (h : HSlot) (w : Contrib), x.queues = [(qn, { Queue.reset with slots := [(i, h)] })] → endsOf x qn = [e] → e.role = 2 →
        e.harith = 1 → e.size = 0 → h.wait = [w] → w.msg.sidx = h.folded → w.entered < q.cycles → h.units = 0 → w.msg.payload.length = 512 →
        h.sum.length = 512 ∨ h.sum = [] → (∀ j, j < 128 → (fastAdd (el h.sum j) (el w.msg.payload j)).sat = false ∧
          (fastAdd (el h.sum j) (el w.msg.payload j)).nan = false) →
        Answers (.hopperFold c) s fun t => OnlyCore s t c ∧ { getCore t c with queues := x.queues } = x ∧
          let y := hslotOf (queueOf (getCore t c) qn) i
          y.folded = h.folded + 1 ∧ y.wait = [] ∧ y.ready = (if h.folded = e.hcount then some q.cycles else none) ∧
          y.sum.length = 512 ∧ ∀ j, j < 128 → fld y.sum (4 * j) 4 = (fastAdd (el h.sum j) (el w.msg.payload j)).bits)

/-- R171 to R174, R176, R346, Tables 7.5, 7.6: in one cycle of an object's home the control-node signals that wait, of its job and with an
increment, then the cores' signals that reached it are added to its counter, then its waits are tested in ascending core: one whose threshold
is reached takes it under mode 1, and its release sets out, 16 cycles back. A core's signal past 2^32 − 1 halts the signaller; a frame
without effect is reported with its cause; a watch that is met fires and disarms. A release frees the head that waited. A grant keeps the
counter; a dump holds all 4,096 objects; a watch is armed and disarmed. -/
def Obligations.SynchronisationObjects : Prop :=
  ∀ (s : State) (ch : ChId) (obj : BitVec 12),
    let n := ch.toNat
    let q := getCh s n
    let o := objOf q obj.toNat
    let ob := fun (t : State) => objOf (getCh t n) obj.toNat
    let home := fun (P : State → Prop) => Answers (.signalArrival ch obj) s P ∧ Answers (.waitTest ch obj) s P
    let ready := brakeNow q = false ∧ homeMoves q obj.toNat = false
    let unwatched := ∀ w, w < 32 → cGet s n (0x510 + w) 3 = 0
    let due := fun (g : SyncFly) => g.obj == obj.toNat && decide (g.due ≤ q.cycles) && g.kind != .free
    (∀ (jb : Nat) (ws : List SyncFly),
      let frames := q.frames.filter fun g => g.1 == obj.toNat
      let incs := q.syncFly.map fun g => match g.kind with
        | .signal inc => if due g then inc else 0
        | _ => 0
      let ctr := o.ctr + (frames.map (·.2.1)).sum + incs.sum
      let waits := q.waits.filter (fun g => g.obj == obj.toNat) ++ q.syncFly.filter fun g => due g && g.kind.isWait
      let done := ws.foldl (fun (a : Nat × List SyncFly) g => match g.kind with
        | .wait thr mode => if thr ≤ a.1 then (if mode then a.1 - thr else a.1, a.2 ++ [g]) else a
        | _ => a) (ctr, [])
      ready → unwatched → (∀ g ∈ q.syncFly, due g = true → g.due = q.cycles) →
      (∀ g ∈ frames, g.2.2 = jb ∧ g.2.1 ≠ 0 ∧ o.job = some jb ∧ (getJob s jb).st = .running) → ctr < 2 ^ 32 →
      ws.Perm waits → (ws.map (·.core)).Pairwise (· < ·) → (∀ g ∈ ws, g.kind.isWait = true) → home fun t =>
        OnlyChannel s t n ∧ ob t = { o with ctr := done.1, signals := o.signals ++ frames.map (·.2.1) } ∧
        (getCh t n).syncFly = q.syncFly.filter (fun g => !due g) ++ done.2.map (fun g => ⟨q.cycles + 16, obj.toNat, g.core, .free, g.org⟩) ∧
        (∀ g, g ∈ (getCh t n).waits ↔ (g ∈ q.waits ∨ (g ∈ q.syncFly ∧ due g = true ∧ g.kind.isWait = true)) ∧ g ∉ done.2) ∧
        (getCh t n).frames = q.frames.filter (fun g => g.1 != obj.toNat) ∧ (getCh t n).cores = q.cores ∧
        ∀ m, m ≠ obj.toNat → objOf (getCh t n) m = objOf q m) ∧
    (∀ (f : SyncFly) (inc : Nat), ready → unwatched → q.frames = [] → q.waits = [] → q.syncFly = [f] → f.obj = obj.toNat → f.due = q.cycles →
      f.kind = .signal inc → 2 ^ 32 ≤ o.ctr + inc → (getCore s (mkCore n f.core)).status = .running → f.core < 128 →
      (getCore s (mkCore n f.core)).pendHalt = none → home fun t => OnlyChannel s t n ∧ ob t = o ∧ (getCh t n).syncFly = [] ∧
        (getCore t (mkCore n f.core)).pendHalt = some ⟨f.org.cyc, 0x63, true, f.org.slot, f.org.pc⟩) ∧
    (∀ (inc : Word) (jb : BitVec 16) (cause : Nat),
      let none_ := (o.job = none ∨ ∃ j, o.job = some j ∧ (getJob s j).st ≠ .loaded ∧ (getJob s j).st ≠ .running) ∧ cause = 1
      let some_ := ∃ j, o.job = some j ∧ (getJob s j).st = .running ∧ ((j ≠ jb.toNat ∧ cause = 3) ∨
        (j = jb.toNat ∧ inc = 0 ∧ cause = 4) ∨ (j = jb.toNat ∧ inc ≠ 0 ∧ 2 ^ 32 ≤ o.ctr + inc.toNat ∧ cause = 2))
      let reported := fun (t : State) => ob t = o ∧ (getCh t n).cores = q.cores ∧ Reports s t 0x0030 ∧
        ∀ r, t.hub.events.getLast? = some r → fld r 4 2 = jb.toNat ∧ fld r 16 2 = obj.toNat ∧ fld r 18 1 = cause
      (q.st = .serving → Answers (.signalFrame ch obj inc jb) s fun t => OnlyChannel s t n ∧
        getCh t n = { q with frames := q.frames ++ [(obj.toNat, inc.toNat, jb.toNat)] }) ∧
      (s.hub.events.length < 8192 → none_ ∨ some_ →
        (q.st ≠ .serving → Answers (.signalFrame ch obj inc jb) s reported) ∧
        (ready → unwatched → q.syncFly = [] → q.waits = [] → q.frames = [(obj.toNat, inc.toNat, jb.toNat)] → home reported))) ∧
    (∀ w, ready → q.frames = [] → q.syncFly = [] → q.waits = [] → w < 32 → (∀ i, i < 32 → i ≠ w → cGet s n (0x510 + i) 3 = 0) →
      cGet s n (0x510 + w) 3 = 1 → cGet s n (0x510 + w) 1 = obj.toNat → cGet s n (0x510 + w) 2 ≤ o.ctr → s.hub.events.length < 8192 →
      home fun t => ob t = o ∧ cGet t n (0x510 + w) 3 = 0 ∧ cGet t n (0x510 + w) 4 = q.ft ∧ Reports s t 0x0031) ∧
    (∀ (f : SyncFly) (c : CoreId) (e : XEntry) (r : List XEntry) (thr : Nat) (mode : Bool), chOf c = n → q.syncFly = [f] → f.kind = .free →
      f.core = inCh c → f.due ≤ q.cycles → (getCore s c).xq = e :: r → e.op = .wait obj.toNat thr mode → e.sent = true →
      Answers (.waitReleaseArrival c) s fun t => OnlyChannel s t n ∧ (∀ d, d ≠ c → getCore t d = getCore s d) ∧
        { getCh t n with cores := q.cores } = { q with syncFly := [] } ∧
        getCore t c = if f.org = e.org then { getCore s c with xq := r, xHeld := false } else getCore s c) ∧
    (∀ (rq : Req) (lo count jb : Nat), MayCommand s rq (cIdx n 0x501) 4 → cGet s n 0x501 1 = lo → cGet s n 0x501 2 = count →
      cGet s n 0x501 3 = jb →
      (0 < count → lo + count ≤ 4096 → grantedToRunning s n lo count = false →
        Answers (.syncGrantApply rq ch 1) s (Answered rq 0x00 [] fun u => OnlyChannel s u n ∧ { getCh u n with objs := q.objs } = q ∧
          ∀ i, objOf (getCh u n) i = if lo ≤ i ∧ i < lo + count then
            { objOf q i with job := if jb = 0xFFFF then none else some jb, first := none, copy := (objOf q i).ctr, signals := [] }
            else objOf q i)) ∧
      (count = 0 ∨ 4096 < lo + count ∨ grantedToRunning s n lo count = true →
        Answers (.syncGrantApply rq ch 1) s (Answered rq 0x09 [] (· = s)))) ∧
    (∀ rq : Req, MayCommand s rq (cIdx n 0x502) 3 → (∀ i, (objOf q i).ctr < 2 ^ 32 ∧ (objOf q i).job.getD 0xFFFF < 2 ^ 16) →
      Answers (.syncDumpTake rq ch 1) s (Answered rq 0x00 [] fun u => OnlyChannel s u n ∧ { getCh u n with dump := q.dump } = q ∧
        (getCh u n).dump.length = 9 ∧ fld ((getCh u n).dump.getD 0 []) 0 8 = q.ft % 2 ^ 64 ∧ fld ((getCh u n).dump.getD 0 []) 10 1 = n ∧
        fld ((getCh u n).dump.getD 0 []) 11 1 = 0 ∧ ∀ i, i < 4096 →
          leNat (slice ((getCh u n).dump.getD (1 + i / 512) []) (8 * (i % 512)) 8) =
            (objOf q i).ctr * 2 ^ 32 + (objOf q i).job.getD 0xFFFF * 2 ^ 16 + min (q.waits.filter fun g => g.obj == i).length 255 * 2 ^ 8 +
              if ∃ w, w < 32 ∧ cGet s n (0x510 + w) 3 = 1 ∧ cGet s n (0x510 + w) 1 = i then 2 ^ 7 else 0)) ∧
    ∀ (rq : Req) (w : BitVec 5) (v : Byte), MayCommand s rq (cIdx n (0x510 + w.toNat)) 3 →
      (v.toNat ≤ 1 → Answers (.syncWatchArm rq ch w v) s (Answered rq 0x00 [] fun u => u = cSet s n (0x510 + w.toNat) 3 v.toNat)) ∧
      (1 < v.toNat → Answers (.syncWatchArm rq ch w v) s (Answered rq 0x05 [] (· = s)))

/-! ### Time, the brake and operating points -/

/-- R228 to R233, R220 to R222, Tables 10.3 and 10.7: an episode that ends is counted and logged newest first, of 64; one that reaches the limit
is reported and goes on; a throttle gap raises a braked cycle after its schedule cycles; a droop stretches the periods to come and changes no
count, no cycle and no core; an operating point asked for is taken at its time, and changes the clock alone. -/
def Obligations.BrakeAndOperatingPoints : Prop :=
  ∀ (s : State) (ch : ChId) (rq : Req),
    let n := ch.toNat
    let q := getCh s n
    let count := fun (t : State) (sub : Nat) => cGet t n 0x101 sub
    (q.brake.isOn = true → q.brake.sched < q.sched → q.brake.len ≠ 0 → q.brake.causes.any (condHolds q) = false → q.brake.first.code ≠ 8 →
      Answers (.brakeEnd ch) s fun t => OnlyChannel { s with dict := t.dict } t n ∧
        { getCh t n with brake := q.brake, brakeLog := q.brakeLog } = q ∧ (getCh t n).brake.isOn = false ∧
        (getCh t n).brakeLog = (BitVec.ofNat 256 (brakeEntry q 0) :: q.brakeLog).take 64 ∧ count t 2 = (count s 2 + 1) % 2 ^ 64 ∧
        count t 3 = max (count s 3) (min q.brake.len 0xFFFFFFFF)) ∧
    (q.brake.causes.any (condHolds q) = true → Answers (.brakeEnd ch) s (· = s)) ∧
    (brakeNow q = true → q.brake.len = count s 4 → q.brake.len ≠ 0 → q.brake.first.code ≠ 8 → s.hub.events.length < 8192 →
      Answers (.brakeLimit ch) s fun t => OnlyHub s t ∧ Reports s t 0x0012) ∧
    (∀ gap, cGet s n 0x100 9 = gap → 2 ≤ gap → q.brake.isOn = false →
      (q.brake.gapCnt + 1 = gap → Answers (.throttleBrake ch) s fun t => OnlyChannel s t n ∧ { getCh t n with brake := q.brake } = q ∧
        (getCh t n).brake.isOn = true ∧ (getCh t n).brake.gapCnt = 0 ∧ (getCh t n).brake.causes = [⟨8, 0, 0, .cycles 1⟩]) ∧
      (q.brake.gapCnt + 1 < gap → Answers (.throttleBrake ch) s (· = s))) ∧
    (∀ gap, cGet s n 0x100 9 = gap → 2 ≤ gap → gap ≤ q.brake.gapCnt + 1 → brakeNow q = true → brakeEnds q = false →
      Answers (.throttleBrake ch) s (· = updCh s n fun k => { k with brake := { k.brake with gapCnt := 0 } })) ∧
    (∀ (region : BitVec 3) (periods : BitVec 4) (permille : BitVec 9), Answers (.droopStretch ch region periods permille) s fun t =>
      (q.st = .serving → OnlyChannel { s with free := t.free } t n ∧ { getCh t n with stretch := q.stretch, wander := q.wander } = q ∧
        (getCh t n).stretch = q.stretch ++ List.replicate periods.toNat (min 500 permille.toNat)) ∧ (q.st ≠ .serving → t = s)) ∧
    (∀ target time, q.oppReq = some (target, time) →
      (time ≤ q.ft → Answers (.oppointSwitch ch) s fun t => OnlyChannel s t n ∧ getCh t n = { q with mhz := target, oppReq := none }) ∧
      (q.ft < time → Answers (.oppointSwitch ch) s (· = s))) ∧
    (MayCommand s rq (cIdx n 0x100) 3 → ∀ target, cGet s n 0x100 2 = target →
      (target ∈ [850, 750, 600, 400] → target ≤ opCeil s n →
        Answers (.chOppointAt rq ch 0) s (Answered rq 0x00 [] fun u => ∃ time, u = cSet (updCh s n fun k => { k with oppReq := some (target, time) })
          n 0x100 3 time ∧ time % 1024 = 0 ∧ q.ft + 50000 ≤ time ∧ time < q.ft + 50000 + 1024)) ∧
      (target ∈ [850, 750, 600, 400] → opCeil s n < target → s.hub.events.length < 8192 →
        Answers (.chOppointAt rq ch 0) s (Answered rq 0x09 [] fun u => OnlyHub s u ∧ Reports s u 0x0013)))

/-- R224, R225, R311, R317: Fabric Time on the links. An UP port sends the count, in 1/16 tick, at which its next flit leaves, and keeps the
flit back behind a replay; the delay measured is half the difference of the two round-trip spans; a source newly selected brings its port's
delay; a stamp at the source is compared with the count: within a tick it counts towards lock, to 64 ticks it slews, beyond that an idle
channel steps; the loss of the source begins holdover. -/
def Obligations.FabricTimeOnLinks : Prop :=
  ∀ (s : State) (ch : ChId) (p : BitVec 3) (w1 w2 w3 w4 : BitVec 64) (stratum : Byte),
    let n := ch.toNat
    let q := getCh s n
    let lp := getPort q p.toNat
    let d := dGet s (lnkIdx n p.toNat) 6
    let start := max ((s.hub.time + 3) / 4 * 4) lp.slotAt
    let now := 16 * q.ft + 16 * (start - s.hub.time)
    let sent := fun (type : Nat) (pay : List Byte) (t : State) => OnlyChannel s t n ∧ (∃ h, h / 2 ^ 60 = type ∧
      (getPort (getCh t n) p.toNat).out = lp.out ++ [flitBytes true h pay]) ∧ (getPort (getCh t n) p.toNat).st = lp.st ∧
      (getPort (getCh t n) p.toNat).slotAt = start + 4
    let held := fun (x : Symbol) (t : State) => OnlyChannel s t n ∧ getPort (getCh t n) p.toNat = { lp with waits := lp.waits ++ [x] }
    p.toNat < 4 → lp.st = .up → lp.rxSeq < 4096 →
    (lp.again = [] →
      Answers (.timeFlitSend ch p) s (fun t => ∃ pay, sent 2 pay t ∧ fld pay 0 8 = now % 2 ^ 64) ∧
      Answers (.linkDelayMeasurement ch p) s (fun t => sent 3 (leBytes 8 now) t ∧ (getPort (getCh t n) p.toNat).echoT1 = some now) ∧
      Answers (.echoReq ch p w1 w2) s (sent 4 (leBytes 8 w1.toNat ++ leBytes 8 w2.toNat ++ leBytes 8 now))) ∧
    (lp.again ≠ [] → Answers (.timeFlitSend ch p) s (held .time) ∧ Answers (.linkDelayMeasurement ch p) s (held .echoReq) ∧
      Answers (.echoReq ch p w1 w2) s (held (Symbol.echoRsp w1.toNat w2.toNat))) ∧
    (lp.echoT1 = some w1.toNat → w1.toNat ≤ w2.toNat → w2.toNat ≤ w3.toNat → w3.toNat - w2.toNat ≤ w4.toNat - w1.toNat →
      w4.toNat - w1.toNat < 2 ^ 32 → Answers (.echoRsp ch p w1 w2 w3 w4) s fun t =>
        dGet t (lnkIdx n p.toNat) 6 = ((w4.toNat - w1.toNat) - (w3.toNat - w2.toNat)) / 2 ∧ (getPort (getCh t n) p.toNat).echoT1 = none) ∧
    (let u := dSet s (lnkIdx n p.toNat) 7 stratum.toNat
     let off : Int := (w1.toNat : Int) + d - w2.toNat
     let stamped := Answers (.timeStampReceipt ch p w1 w2 stratum) s
     let locks := if q.source = some p.toNat then q.ftLocks else 0
     (ftPick u n ≠ some p.toNat → ftPick u n = q.source → stamped (· = u)) ∧
     (∀ a, ftPick u n = some a → q.source ≠ some a → stamped fun t => (getCh t n).source = some a ∧
       cGet t n 0x103 7 = dGet u (lnkIdx n a) 6 ∧ (a ≠ p.toNat → (getCh t n).slew = 0 ∧ (getCh t n).ftLocks = 0 ∧ (getCh t n).ft = q.ft)) ∧
     (ftPick u n = none → q.source ≠ none → dGet s (cIdx n 0x103) 8 ≠ 1 → cGet s n 0x103 3 ≠ 5 → stamped fun t =>
       (getCh t n).source = none ∧ (getCh t n).ftState = 3 ∧ (getCh t n).slew = 0 ∧ (getCh t n).ft = q.ft ∧ cGet t n 0x103 6 = q.ft) ∧
     (ftPick u n = some p.toNat → off.natAbs ≤ 16 → stamped fun t => (getCh t n).ftLocks = min 16 (locks + 1) ∧ (getCh t n).slew = 0 ∧
       (getCh t n).ft = q.ft ∧ (getCh t n).source = some p.toNat ∧ (15 ≤ locks → (getCh t n).ftState = 2)) ∧
     (ftPick u n = some p.toNat → 16 < off.natAbs → off.natAbs ≤ 1024 → stamped fun t => (getCh t n).slew = (if 0 < off then 1 else -1) ∧
       (getCh t n).ftLocks = 0 ∧ (getCh t n).ft = q.ft) ∧
     (ftPick u n = some p.toNat → 1024 < off.natAbs → chIdle s n = true → stamped fun t => (getCh t n).ft = ((q.ft : Int) + off / 16).toNat ∧
       (getCh t n).ftState = 1)) ∧
    (q.source ≠ none → Answers (.ftSourceLost ch) s fun t => (getCh t n).source = none ∧ (getCh t n).ftState = 3 ∧ (getCh t n).slew = 0 ∧
      (getCh t n).ft = q.ft ∧ cGet t n 0x103 6 = q.ft) ∧
    (q.source = none → Answers (.ftSourceLost ch) s (· = s))

/-! ### Steps -/

/-- R36, R38, R226, R227, R242, R250, R258, R259, R260, Table 12.1: a launch due releases each core that holds for it with its window loaded, and
nothing before its time; a barrier's countdown releases step 0; a step done everywhere is cleared to the lead channel, whose COMMIT drops the
copies of the step; a commit accepted with nothing left to release completes; a task whose operations are done ends, and the last live task of
its job closes the halted tasks' queues too. -/
def Obligations.StepsClearAndCommit : Prop :=
  ∀ (s : State) (ch : ChId) (j : JobSlot) (k : Lctl),
    let n := ch.toNat
    let q := getCh s n
    let v := jobOf q j.toNat
    let job := getJob s j.toNat
    let own := ownDev s
    let after := fun (t : State) => jobOf (getCh t n) j.toNat
    let mine := fun (c : Nat) => (coreOf q c).job = j.toNat ∧ (coreOf q c).status ≠ .noTask
    (∀ m time, v.placed = true → v.revoke = none → v.step = some m → v.launchFor = some (m + 1, time) → job.released ≠ m + 1 → v.early = none →
      (∀ e ∈ q.staged, e.1 ≠ j.toNat) →
      ((jobCores q j.toNat).any fun c => (coreOf q c).toLaunch = some m ∧ (coreOf q c).status = .holding ∧ windowLoaded (coreOf q c)) = false →
      (q.ft < time → Answers (.launchRelease ch j) s (· = s)) ∧
      (time ≤ q.ft → v.missed = false → launchReady s n j.toNat (m + 1) = true → Answers (.launchRelease ch j) s fun t =>
        OnlyChannel s t n ∧ (after t).step = some (m + 1) ∧ (after t).ftLaunch = time ∧ (after t).lag = 0 ∧
        ∀ c, coreOf (getCh t n) c = if (coreOf q c).job = j.toNat ∧ (coreOf q c).status = .holding ∧ (coreOf q c).toLaunch = some (m + 1) ∧
            windowLoaded (coreOf q c) = true
          then { coreOf q c with status := .running, toLaunch := none, step := m + 1, launchAt := (coreOf q c).sched, curMap := nextMap (coreOf q c),
                                 stepFlags := 0, dumped := [], failGen := none }
          else coreOf q c)) ∧
    (∀ time, job.barrier = some time → time ≤ s.hub.time → job.st = .loaded → job.released = 0 → jobHere job = [n] → v.early = none →
      Answers (.barrierStart j) s fun t => (getJob t j.toNat).barrier = none ∧ (getJob t j.toNat).st = .running ∧ (after t).step = some 0 ∧
        (after t).ftLaunch = q.ft) ∧
    (∀ m lead, clearReady q j.toNat = some m → job.lead = (own, lead) → lead ≠ n → Answers (.stepClear ch j) s fun t =>
      (after t).sentClear = m + 1 ∧ (∃ x : Lctl, t.hub.relay = s.hub.relay ++ [(s.hub.time + 300, lead, 3, x)] ∧ x.step = BitVec.ofNat 64 m ∧
        x.gen = BitVec.ofNat 16 v.gen ∧ x.srcCh = ch) ∧ ∀ c, mine c → (coreOf (getCh t n) c).rdig = 0) ∧
    (clearReady q j.toNat = none → Answers (.stepClear ch j) s (· = s)) ∧
    (∀ a b, k.srcDev.toNat = own → taggedJob s k.tag.toNat = some j.toNat → job.lead = (own, n) → job.leadStep = k.step.toNat → k.srcCh.toNat = a →
      job.chans = [(own, a), (own, b)] → a ≠ b → job.cleared = [] → Answers (.lctlClear ch k) s fun t => t.ch = s.ch ∧
        (getJob t j.toNat).cleared = [(own, a, k.step.toNat, k.gen.toNat)] ∧ (getJob t j.toNat).leadStep = k.step.toNat) ∧
    (k.srcDev.toNat = own → taggedJob s k.tag.toNat = some j.toNat → v.placed = true → v.gotCommit = k.step.toNat →
      v.sentClear = k.step.toNat + 1 → q.siding = [] → Answers (.lctlCommit ch k) s fun t => (after t).gotCommit = k.step.toNat + 1 ∧
        (∃ x ∈ (after t).commits, x.step = k.step.toNat) ∧ (after t).inputs = (v.inputs.filter fun e => decide (k.step.toNat < e.1)) ∧
        ∀ c, mine c → (coreOf (getCh t n) c).snaps = (coreOf q c).snaps.filter fun p => decide (k.step.toNat < p.step)) ∧
    (∀ c r, v.commits = c :: r → q.siding = [] → q.reqs = [] → job.relWait = false →
      (c.accepted = true → Answers (.commitComplete ch j) s fun t => (after t).committed = c.step + 1 ∧ (after t).commits = r) ∧
      (c.accepted = false → Answers (.commitComplete ch j) s (· = s))) ∧
    (k.srcDev.toNat = own → taggedJob s k.tag.toNat = some j.toNat → job.st = .loaded → job.released = 0 → Answers (.lctlBarrier ch k) s fun t =>
      t.ch = s.ch ∧ (getJob t j.toNat).barrier = some (s.hub.time + k.time.toNat / 16) ∧ (getJob t j.toNat).launched = true) ∧
    ∀ c : CoreId, let x := getCore s c
      let shut := fun (y : Core) => { y with queues := tabMap y.queues fun _ z => { z with shut := true } }
      let others := (jobCores (getCh s (chOf c)) x.job).filter (· != inCh c)
      x.status = .done → coreQuiet (getCh s (chOf c)) (inCh c) x = true → (getJob s x.job).st ≠ .running →
      (others.any (fun m => coreLive (coreOf (getCh s (chOf c)) m)) = true →
        Answers (.taskEnd c) s (CoreBecomes s · c (shut { x with status := .ended }))) ∧
      (others.any (fun m => coreLive (coreOf (getCh s (chOf c)) m)) = false → Answers (.taskEnd c) s fun t => OnlyCores s t (chOf c) ∧
        getCore t c = shut { x with status := .ended } ∧ ∀ m, m ≠ inCh c → coreOf (getCh t (chOf c)) m =
          (let y := coreOf (getCh s (chOf c)) m; if y.job = x.job ∧ y.status = .halted then shut y else y))

/-- R263, R264, R265, R254, R269, R272, R314: a channel told of a revoke stops the job's cores, and keeps one of the step it launches next until
then; the drain done, nothing under way is left of the job's cores and each is restored to the copies of the step and holds for its replay; a
shunt's copy done, the logical core stands at the spare and its old position is FAILED; a seizure of a free position dumps and ends; a link control
packet is sent again, and counted, until its LACK, up to eight times. -/
def Obligations.RevokesShuntsAndControl : Prop :=
  ∀ (s : State) (ch : ChId) (j : JobSlot) (k : Lctl) (id : BitVec 16),
    let n := ch.toNat
    let q := getCh s n
    let v := jobOf q j.toNat
    let own := ownDev s
    let after := fun (t : State) => jobOf (getCh t n) j.toNat
    let mine := fun (c : Nat) => (coreOf q c).job = j.toNat ∧ (coreOf q c).status ≠ .noTask
    (k.srcDev.toNat = own → taggedJob s k.tag.toNat = some j.toNat → v.placed = true → v.step = some k.step.toNat → v.gotCommit ≤ k.step.toNat →
      v.gen < k.gen.toNat → v.acted < cGet s n 0x700 5 → (∀ c, mine c → (coreOf q c).pendHalt = none) →
      Answers (.lctlRevoke ch k) s fun t => OnlyChannel { s with dict := t.dict } t n ∧
        (after t).gen = k.gen.toNat ∧ (after t).acted = v.acted + 1 ∧
        (after t).revoke = some ⟨k.step.toNat, k.gen.toNat, k.time.toNat, .draining, [], []⟩ ∧
        ∀ c, mine c → (coreOf q c).status = .running → (coreOf (getCh t n) c).status = .stopped ∧
          (coreOf (getCh t n) c).g = (coreOf q c).g) ∧
    (k.srcDev.toNat = own → taggedJob s k.tag.toNat = some j.toNat → v.placed = true → v.gotCommit ≤ k.step.toNat → v.early = none →
      v.step ≠ some k.step.toNat → (match v.step with | some m => m + 1 | none => 0) = k.step.toNat → Answers (.lctlRevoke ch k) s fun t =>
        OnlyChannel s t n ∧ after t = { v with early := some (k.step.toNat, k.gen.toNat, k.time.toNat) }) ∧
    (∀ r c (x : Core) (p : Snapshot), v.revoke = some r → r.phase = .draining → r.shunts = [] → jobDrained s n j.toNat = true → q.cores = [(c, x)] →
      x.job = j.toNat → x.status = .stopped → x.snaps = [p] → p.step = r.step → p.rings = [] → v.appends = [] →
      Answers (.revokeDrainComplete ch j) s fun t =>
        (after t).revoke = some { r with phase := .holding, copies := [] } ∧
        (∀ f ∈ (getCh t n).waits ++ (getCh t n).syncFly, f.core ≠ c) ∧
        let y := coreOf (getCh t n) c
        y.grip = .free ∧ y.doneAt = none ∧ y.xWait = none ∧ y.status = .holding ∧ y.toLaunch = some r.step ∧ y.g = p.g ∧
          y.loops = p.loops ∧ y.skips = p.skips ∧ y.pc = p.pc ∧ y.conns = p.conns ∧
          y.coupl = p.coupl ∧ y.sched = p.sched ∧ y.rdig = p.rdig ∧ y.dmem = x.dmem ∧ y.spad = x.spad ∧ y.v = x.v) ∧
    (∀ r, v.revoke = some r → r.phase ≠ .draining → Answers (.revokeDrainComplete ch j) s (· = s)) ∧
    (∀ (cl : BitVec 3) r c a, shuntIn q cl.toNat = some (j.toNat, r, c) → r.shunts = [c, a] → a ≠ c → spareAt q cl.toNat = some 16 →
      posOf q c < 16 → Answers (.shuntCopyComplete ch cl) s fun t => OnlyChannel s t n ∧ posOf (getCh t n) c = 16 ∧
        posState (getCh t n) cl.toNat 16 = .inUse ∧ posState (getCh t n) cl.toNat (posOf q c) = .failed ∧
        ∀ m, coreOf (getCh t n) m = if m = c then { coreOf q m with grip := .released } else coreOf q m) ∧
    (∀ z, q.seize = some z → z.core = none → Answers (.seizeFenceDrained ch) s fun t => OnlyChannel s t n ∧
      (getCh t n).seize = none ∧ (getCh t n).dump.length = 9 ∧ { getCh t n with seize := q.seize, dump := q.dump } = q) ∧
    Answers (.lack ch id) s (fun t => OnlyChannel s t n ∧ getCh t n = { q with lctls := q.lctls.filter fun l => l.id != id.toNat }) ∧
    ∀ l, q.lctls = [l] → l.id = id.toNat →
      (l.tries < 8 → (∀ c, routePort q l.ddev l.dch = some c → c = 8) → routePort q l.ddev l.dch ≠ none →
        Answers (.lctlResendTimeout ch id) s fun t => (getCh t n).lctls = [{ l with tries := l.tries + 1, sent := s.hub.time }] ∧
          cGet t n 0x400 5 = min (cGet s n 0x400 5 + 1) 0xFFFFFFFF ∧ ∃ x, (getCh t n).pktIn = q.pktIn ++ [x]) ∧
      (8 ≤ l.tries → s.hub.events.length < 8192 → Answers (.lctlResendTimeout ch id) s fun t =>
        (getCh t n).lctls = [] ∧ Reports s t 0x0061)

/-! ### Packets, memories and links -/

/-- R193, R195, R197, R199, R201, R202, R210, R212, R312, R315, R322, Table 14.5: a home that serves takes a request once and reads or writes the
bytes it names, answering it with the request's TAG; a write of a scratchpad waits at its fill port; a range that is not there, an unreadable
page and a link that is down are answered so. An answer completes its request, a fault halts the core that asked or reports the page; a REACH
notice moves a device between reachable and not; a refresh is seen by nothing else; a CXL link comes up with what was trained, and goes down. -/
def Obligations.PacketsAndMemories : Prop :=
  ∀ (s : State) (ch : ChId) (k : Pkt) (ecc : Ecc),
    let n := ch.toNat
    let q := getCh s n
    let tag := k.arg.toNat / 2 ^ 48
    let tier := bits k.arg.toNat 46 2
    let addr := bits k.arg.toNat 0 46
    let len := fld k.body 0 4
    let size := k.body.length
    let src := 4 * k.sdev.toNat + k.sch.toNat
    let there := fun (m : Nat) => rangeThere s n tier addr m = true
    let up := tier = 2 → cGet s n 0x201 1 = 2 ∨ cGet s n 0x201 1 = 3
    let noted := { q with seenTags := (src, tag) :: ((q.seenTags.filter fun e => e.1 == src).take 32767 ++ q.seenTags.filter fun e => e.1 != src) }
    let counted := fun (sub m : Nat) => dSet s (cIdx n 0x200) sub (min (cGet s n 0x200 sub + m) 0xFFFFFFFF)
    let replies := fun (w : State) (kind slot arg : Nat) (body : List Byte) (u : Channel) (t : State) => OnlyChannel w t n ∧
      ∃ x : PktIn, getCh t n = { u with pktIn := q.pktIn ++ [x] } ∧ x.kind = kind ∧ x.pkt.ddev = k.sdev ∧ x.pkt.dch = k.sch ∧
        x.pkt.slot.toNat = slot ∧ x.pkt.arg.toNat = tag * 2 ^ 48 + arg ∧ x.pkt.body = body
    (q.st ≠ .serving ∨ (src, tag) ∈ q.seenTags → Answers (.rdreq ch ecc k) s (· = s) ∧ Answers (.pktWrite ch k) s (· = s)) ∧
    (q.st = .serving → (src, tag) ∉ q.seenTags → routePort q k.sdev.toNat k.sch.toNat = some 8 → ownDev s < 4096 →
      (0 < len → len ≤ 4096 → there len → up →
        (let data := if tier = 2 then memRead q.cxl addr len else memRead q.gddr addr len
         Answers (.rdreq ch .clean k) s (replies s 2 k.slot.toNat 0 data noted) ∧
         (tier = 1 → Answers (.rdreq ch .single k) s (replies (counted 3 1) 2 k.slot.toNat 0 data noted) ∧
           Answers (.rdreq ch .double k) s (replies (counted 4 1) 5 0xFFFF (0x01 * 2 ^ 40) [] noted)))) ∧
      (0 < len → len ≤ 4096 → there len → ¬ up → Answers (.rdreq ch ecc k) s (replies s 5 0xFFFF (0x01 * 2 ^ 40) [] noted)) ∧
      (len = 0 ∨ 4096 < len ∨ ¬ there len → Answers (.rdreq ch ecc k) s (replies s 5 0xFFFF (0x2A * 2 ^ 40) [] noted)) ∧
      (tier = 1 → there size → Answers (.pktWrite ch k) s
        (replies (counted 3 (Config.writeRetries n s.hub.time)) 4 0xFFFF 0 [] { noted with gddr := memWrite q.gddr addr k.body })) ∧
      (tier = 2 → there size → up → Answers (.pktWrite ch k) s (replies s 4 0xFFFF 0 [] { noted with cxl := memWrite q.cxl addr k.body })) ∧
      (tier = 2 → there size → ¬ up → s.hub.events.length < 8192 → Answers (.pktWrite ch k) s fun t =>
        Reports s t 0x0042 ∧ (getCh t n).cxl = q.cxl ∧ (getCh t n).gddr = q.gddr) ∧
      (tier = 0 → size ≠ 0 → Answers (.pktWrite ch k) s fun t => OnlyChannel s t n ∧
        { getCh t n with cores := q.cores } = noted ∧ (∀ m, m ≠ bits addr 21 7 → coreOf (getCh t n) m = coreOf q m) ∧
        let c := coreOf q (bits addr 21 7)
        let c' := coreOf (getCh t n) (bits addr 21 7)
        ∃ bs, c' = { c with fill := c.fill ++ bs } ∧ (∀ b ∈ bs, b.arrive = q.cycles) ∧ bs.length = (size + 255) / 256 ∧
          ((bs.flatMap (·.writes)).flatMap (·.2)) = k.body ∧ ∀ i b, bs[i]? = some b → b.writes.map (·.1) = [addr % 2 ^ 21 + 256 * i]) ∧
      (tier ≠ 0 ∨ size = 0 → ¬ there size → Answers (.pktWrite ch k) s (replies s 5 0xFFFF (0x2A * 2 ^ 40) [] noted))) ∧
    (∀ r i, reqOf q tag = some (r, i) → r.got = [] → 1 < r.parts →
      let waits := fun (body : List Byte) (t : State) =>
        t = updCh s n fun c => { c with reqs := c.reqs.map fun x => if x = r then { r with got := [(i, body)] } else x }
      (r.write = false → Answers (.rddata ch k) s (waits k.body)) ∧ (r.write = true → Answers (.wrdone ch k) s (waits []))) ∧
    (∀ r, reqOf q tag = some (r, 0) → r.parts = 1 → r.got = [] →
      let dropped := updCh s n fun c => { c with reqs := c.reqs.erase r }
      let code := bits k.arg.toNat 40 8
      (r.write = false → r.core = none → Answers (.rddata ch k) s fun t => t = dataAnswer dropped 4 0x00 r.job r.cseq k.body) ∧
      (∀ m d, r.write = false → r.core = some m → r.takers = [m] → (ringOf (coreOf q m) r.ring).desc = some d →
        Answers (.rddata ch k) s fun t => OnlyChannel s t n ∧ (getCh t n).reqs = q.reqs.erase r ∧
          (∀ i, i ≠ m → coreOf (getCh t n) i = coreOf q i) ∧
          ∃ bs, (coreOf (getCh t n) m).fill = (coreOf q m).fill ++ bs ∧ ∀ b ∈ bs, b.arrive = max q.cycles (r.asked + nominal s n r.home)) ∧
      (r.write = true → r.core = none → r.rel = none → r.notes = [] →
        (q.reqs.erase r).all (fun x => x.core.isSome || x.rel.isSome || !x.write || x.cseq != r.cseq) = true →
        Answers (.wrdone ch k) s fun t => t = dataAnswer dropped 2 0x00 r.job r.cseq []) ∧
      (∀ m, r.write = true → r.core = some m → Answers (.wrdone ch k) s fun t => OnlyChannel s t n ∧ (getCh t n).reqs = q.reqs.erase r ∧
        let nom := max (nominal s n r.home) ((r.alt.map (nominal s n)).getD 0)
        coreOf (getCh t n) m = putAccepted (max q.cycles (r.asked + nom - 1)) r.ring r.seq (coreOf q m)) ∧
      (∀ c : CoreId, chOf c = n → r.write = false → r.core = some (inCh c) → code = 0x2A → (getCore s c).status = .running →
        brakeNow q = false → (getCore s c).pendHalt = none → Answers (.fault ch k) s fun t => OnlyChannel s t n ∧
          (getCh t n).reqs = q.reqs.erase r ∧
          getCore t c = { getCore s c with pendHalt := some ⟨r.org.cyc, 0x2A, true, r.org.slot, r.org.pc⟩ }) ∧
      (∀ m, r.write = false → r.core = some m → r.alt = none → code = 0x01 → s.hub.events.length < 8192 → Answers (.fault ch k) s fun t =>
        Reports s t 0x0040 ∧ (getCh t n).reqs = q.reqs.erase r ∧ (getCh t n).cores = q.cores) ∧
      (r.core = none → r.rel = none → code ≠ 0x01 → Answers (.fault ch k) s fun t =>
        t = dataAnswer dropped (if r.write = true then 2 else 4) 0x2A r.job r.cseq [])) ∧
    (reqOf q tag = none → Answers (.rddata ch k) s (· = s) ∧ Answers (.wrdone ch k) s (· = s) ∧ Answers (.fault ch k) s (· = s)) ∧
    (∀ p : BitVec 3, (getPort q p.toNat).tx = [] → Answers (.reach ch p k) s fun t => OnlyChannel s t n ∧
      ∀ dev r, (dev, r) ∈ (getCh t n).cutOff ↔ if dev = k.arg.toNat / 2 ^ 52 ∧ r = p.toNat then bit k.arg.toNat 51 = false
        else (dev, r) ∈ q.cutOff) ∧
    (q.st ≠ .resetting → q.selfRef = false → Answers (.gddr7Refresh ch) s fun t => OnlyChannel s t n ∧
      getCh t n = { q with refreshes := q.refreshes + 1 }) ∧
    (q.st = .resetting ∨ q.selfRef = true → Answers (.gddr7Refresh ch) s (· = s)) ∧
    (q.st = .isolated ∨ q.st = .reloading → q.refIdle + 10000 ≤ s.hub.time → Answers (.selfRefreshEntry ch) s fun t => OnlyChannel s t n ∧
      getCh t n = { q with selfRef := true }) ∧
    (cGet s n 0x201 1 = 2 ∨ cGet s n 0x201 1 = 3 → Answers (.cxlLinkDown ch) s fun t => cGet t n 0x201 1 = 4 ∧
      (∀ m, m ≠ n → getCh t m = getCh s m) ∧ (getCh t n).cxl = q.cxl ∧
      (∀ c, ∀ x ∈ (coreOf (getCh t n) c).putFly, x.dur = false → ∀ d ∈ x.dests, ¬ (d.dev = ownDev s ∧ d.ch = n ∧ d.tier = 2)) ∧
      (q.cores = [] → getCh t n = q ∧ t.hub = s.hub)) ∧
    (cGet s n 0x201 1 ≠ 2 → cGet s n 0x201 1 ≠ 3 → Answers (.cxlLinkDown ch) s (· = s)) ∧
    ∀ (width rate : Byte) (cap : BitVec 64) (fits : Bool), cGet s n 0x201 1 = 1 →
      let known := (width = 8 ∨ width = 4 ∨ width = 2) ∧ (rate = 64 ∨ rate = 32)
      (known → Answers (.cxlBringupComplete ch width rate cap true) s fun t => t.ch = s.ch ∧
        cGet t n 0x201 1 = (if width = 8 ∧ rate = 64 then 2 else 3) ∧ cGet t n 0x201 2 = width.toNat ∧ cGet t n 0x201 3 = rate.toNat ∧
        cGet t n 0x201 4 = min (2 ^ 40) (cap.toNat / 2097152 * 2097152)) ∧
      (width ≠ 0 → fits = false ∨ ¬ known → Answers (.cxlBringupComplete ch width rate cap fits) s fun t => t = cSet s n 0x201 1 5) ∧
      Answers (.cxlBringupComplete ch 0 rate cap fits) s (fun t => t = cSet s n 0x201 1 0)

/-- R304 to R310, R316, R318, R319, R321, Table 14.9: what a flit does at an UP external port, and from which state to which each event and write
takes a port, with the event it sends; a drawbar that leaves UP takes its other end with it; a route write is taken
entry by entry up to the first refused. -/
def Obligations.LinkPorts : Prop :=
  ∀ (s : State) (ch : ChId) (p : BitVec 3) (rq : Req),
    let n := ch.toNat
    let q := getCh s n
    let r := p.toNat
    let lp := getPort q r
    let goes := fun (st : PortSt) (t : State) => (getPort (getCh t n) r).st = st ∧ (getPort (getCh t n) r).since = s.hub.time ∧
      (∀ i, i ≠ r → getPort (getCh t n) i = getPort q i) ∧ (getCh t n).cores = q.cores
    let peerEnd := getPort (getCh s (r - 4)) (4 + n)
    let alone := r < 4 ∨ peerEnd.st ≠ .up
    (∀ bytes : List Byte, r < 4 → lp.st = .up → fecDecode (padTo 256 bytes) = none → Answers (.flitReceipt ch p bytes) s fun t =>
      getPort (getCh t n) r = { lp with nak := true } ∧ (getCh t n).pktIn = q.pktIn ∧
      dGet t (lnkIdx n r) 9 = min (dGet s (lnkIdx n r) 9 + 1) 0xFFFFFFFF) ∧
    (∀ (bytes b : List Byte) (h m : Nat), r < 4 → lp.st = .up → fecDecode (padTo 256 bytes) = some (b, m) → b.length = 256 →
      fld b 240 4 = crc32c (b.take 240) →
      fld b 0 8 = h → bits h 60 4 = 1 → bits h 46 12 = (lp.rxSeq + 1) % 4096 → bit h 33 = false → bit h 32 = true →
      (pktOf (slice b 8 232)).ddev.toNat = ownDev s → (pktOf (slice b 8 232)).dch = ch → bits (fld b 8 16) 64 13 ≤ 216 →
      Answers (.flitReceipt ch p bytes) s fun t => (getPort (getCh t n) r).rxSeq = bits h 46 12 ∧
        (getPort (getCh t n) r).out = lp.out ∧ (m ≠ 0 → dGet t (lnkIdx n r) 8 = (dGet s (lnkIdx n r) 8 + m) % 2 ^ 64) ∧ ∃ x : PktIn,
        (getCh t n).pktIn = q.pktIn ++ [x] ∧ x.due = q.cycles + 12 ∧ x.port = r ∧
        x.pkt = pktOf ((slice b 8 232).take (16 + bits (fld b 8 16) 64 13))) ∧
    (lp.sent = [] → lp.tx = [] → s.hub.events.length < 8192 →
      (lp.st = .down → r < 4 → portsLit q = true → Answers (.portSignalDetect ch p) s (goes .training)) ∧
      (∀ (peer delay : Word) (flight stratum : Byte), lp.st = .training → flight.toNat ≤ dGet s (lnkIdx n r) 5 →
        dGet s (lnkIdx n r) 4 = 0xFFFFFFFF → Answers (.portTrainingComplete ch p peer delay flight stratum) s fun t => goes .up t ∧
          (getPort (getCh t n) r).credits = [(0, 32), (1, 64), (2, 192), (3, 192)] ∧
          (∃ e x, t.hub.events = s.hub.events ++ e :: x ∧ fld e 0 2 = 0x0060) ∧ dGet t (lnkIdx n r) 6 = delay.toNat ∧
          dGet t (lnkIdx n r) 7 = stratum.toNat) ∧
      (∀ (peer delay : Word) (flight stratum : Byte), lp.st = .training → dGet s (lnkIdx n r) 5 < flight.toNat →
        Answers (.portTrainingComplete ch p peer delay flight stratum) s fun t => goes .fault t ∧ Reports s t 0x0060) ∧
      (lp.st = .training → Answers (.portTrainingTimeout ch p) s fun t => goes .down t ∧ Reports s t 0x0060) ∧
      (lp.st = .up → alone → Answers (.portLinkLoss ch p) s fun t => goes .down t ∧ Reports s t 0x0060) ∧
      (lp.st = .up → 4 ≤ r → r ≠ 4 + n → peerEnd.st = .up → peerEnd.sent = [] → peerEnd.tx = [] → Answers (.portLinkLoss ch p) s fun t =>
        (getPort (getCh t n) r).st = .down ∧ (getPort (getCh t (r - 4)) (4 + n)).st = .down) ∧
      (lp.st = .up → alone → lp.replay ≠ [] → Answers (.portAckTimeout ch p) s fun t => goes .fault t ∧ Reports s t 0x0060) ∧
      (lp.st = .shutdown → Answers (.portShutdownComplete ch p) s (goes .disabled)) ∧
      (lp.st = .restarting → Answers (.portShutdownComplete ch p) s (goes .down))) ∧
    (lp.st ≠ .up → Answers (.portLinkLoss ch p) s (· = s) ∧ Answers (.portAckTimeout ch p) s (· = s)) ∧
    (r ≠ 4 + n → MayCommand s rq (lnkIdx n r) 1 →
      (lp.st = .disabled → Answers (.lnkEnable rq ch p) s (Answered rq 0x00 [] fun u => goes .down u ∧ dGet u (lnkIdx n r) 1 = 1)) ∧
      (lp.st = .shutdown → Answers (.lnkEnable rq ch p) s (Answered rq 0x00 [] fun u => goes .restarting u ∧ dGet u (lnkIdx n r) 1 = 1)) ∧
      (lp.st ≠ .disabled → lp.st ≠ .shutdown → (lp.st = .up → alone) →
        Answers (.lnkDisable rq ch p) s (Answered rq 0x00 [] fun u => goes .shutdown u ∧ dGet u (lnkIdx n r) 1 = 0))) ∧
    ∀ (e : Word) (at_ : Nat), MayCommand s rq (cIdx n 0x400) 4 → cGet s n 0x400 2 = at_ → at_ < 16384 →
      (routeRefused (ownDev s) n at_ e.toNat = true → Answers (.lnkRouteData rq ch (leBytes 4 e.toNat)) s (Answered rq 0x09 [] (· = s))) ∧
      (routeRefused (ownDev s) n at_ e.toNat = false → Answers (.lnkRouteData rq ch (leBytes 4 e.toNat)) s (Answered rq 0x00 [] fun u =>
        OnlyChannel s u n ∧ { getCh u n with routes := q.routes } = q ∧ ∀ i, routeEntry (getCh u n) (i / 4) (i % 4) =
          if i = at_ then bits e.toNat 20 8 * 2 ^ 20 + b2n (bit e.toNat 31) * 2 ^ 31 else routeEntry q (i / 4) (i % 4)))

/-- R331 to R338, R347, Table 15.1: a frame in link and class order with good checks is delivered; what each event and write does to a link's
state; frames not acknowledged are sent again, or by the other link; waiting event records leave in a frame of at most 143. -/
def Obligations.HostLinks : Prop :=
  ∀ (s : State) (l : BitVec 1) (rq : Req),
    let n := l.toNat
    let a := getAhn s n
    let goes := fun (st : AhnSt) (t : State) => (getAhn t n).st = st ∧ (getAhn t n).since = s.hub.time ∧
      (∀ i, i ≠ n → getAhn t i = getAhn s i) ∧ t.ch = s.ch
    (∀ (b : List Byte) (m : Nat), a.st = .up → 32 ≤ b.length → fld b 28 4 = crc32c (b.take 28) → fld b 0 1 = 0x5A → fld b 2 2 = m → m ≤ 9180 →
      b.length = frameLen m → fld b (frameLen m - 4) 4 = crc32c (b.take (frameLen m - 4)) → fld b 4 2 = (a.rxSeq + 1) % 65536 → fld b 8 1 = 0 →
      ahnKnown (ahnParse b) = true → fld b 12 4 = tabGet s.hub.rxCseq 0 (fld b 1 1) → s.hub.early = [] → s.hub.out = [] →
      Answers (.ahnFrameReceipt l b) s fun t => t.hub.inbox = s.hub.inbox ++ [ahnParse b] ∧ (getAhn t n).rxSeq = fld b 4 2 ∧ t.ch = s.ch ∧
        tabGet t.hub.rxCseq 0 (fld b 1 1) = (fld b 12 4 + 1) % 4294967296) ∧
    (∀ b : List Byte, a.st = .up → 32 ≤ b.length → fld b 28 4 ≠ crc32c (b.take 28) → Answers (.ahnFrameReceipt l b) s (· = s)) ∧
    (s.hub.events.length < 8192 → s.hub.out = [] → a.replay = [] →
      (a.st = .dark → s.hub.st = .ready → Answers (.ahnLightDetect l) s (goes .training)) ∧
      (a.st = .training → Answers (.ahnTrainingComplete l) s fun t => goes .up t ∧ Reports s t 0x0080 ∧ (getAhn t n).credits = []) ∧
      (a.st = .training → Answers (.ahnTrainingTimeout l) s fun t => goes .dark t ∧ Reports s t 0x0080) ∧
      (a.st = .up → Answers (.ahnLinkLoss l) s fun t => goes .dark t ∧ Reports s t 0x0080) ∧
      (a.st = .shutdown → Answers (.ahnShutdownComplete l) s (goes .disabled)) ∧
      (a.st = .restarting → Answers (.ahnShutdownComplete l) s (goes .dark))) ∧
    (a.st = .up → a.replay ≠ [] → Answers (.ahnResendTimeout l) s fun t => t.ch = s.ch ∧ (getAhn t n).replay = a.replay ∧
      (getAhn t n).out = a.out ++ a.replay.map fun e => ahnBytes a e.1 e.2) ∧
    (a.st ≠ .up → Answers (.ahnResendTimeout l) s (· = s) ∧ Answers (.ahnLinkLoss l) s (· = s)) ∧
    (∀ (cls : BitVec 3) (e : Nat × Frame), s.hub.early = [e] → e.2.cls = cls.toNat → s.hub.events.length < 8192 →
      Answers (.ahnClassGap l cls) s fun t => Reports s t 0x0081 ∧ t.ch = s.ch ∧ t.hub.early = s.hub.early) ∧
    (MayCommand s rq (0x0110 + n) 1 →
      (a.st = .disabled → Answers (.ahnEnable rq l) s (Answered rq 0x00 [] fun u => goes .dark u ∧ dGet u (0x0110 + n) 1 = 1)) ∧
      (a.st = .shutdown → Answers (.ahnEnable rq l) s (Answered rq 0x00 [] fun u => goes .restarting u ∧ dGet u (0x0110 + n) 1 = 1)) ∧
      (a.st ≠ .disabled → a.st ≠ .shutdown →
        Answers (.ahnDisable rq l) s (Answered rq 0x00 [] fun u => goes .shutdown u ∧ dGet u (0x0110 + n) 1 = 0))) ∧
    (s.hub.events ≠ [] → s.hub.evLost = 0 → ahnCan (getAhn s 0) (eventFrame s) = true → Answers .eventFrameSend s fun t => t.ch = s.ch ∧
      t.hub.events = s.hub.events.drop 143 ∧ (getAhn t 0).out = (getAhn s 0).out ++ [ahnBytes (getAhn s 0) (getAhn s 0).txSeq (eventFrame s)]) ∧
    (s.hub.events = [] → Answers .eventFrameSend s (· = s))

/-- R195, R207, R342, R343, R344, R283, Tables 15.5 and 15.6: a WRITE is written at its home, noted for the step to come and acknowledged; a READ
is answered with the bytes of its home, a corrected burst counted, a page not readable reported (what a frame's read meets is free: assumption
log, 99); a frame turned away is answered with its status and does nothing else; a message is offered to its queue and
answered; a frame without an answer for its time is answered 0x34. -/
def Obligations.DataFrames : Prop :=
  ∀ (s : State) (ch : ChId) (jb : BitVec 16) (addr : BitVec 56) (bs : List Byte) (len cseq : Word) (c : CoreId) (qn : BitVec 4),
    s.hub.st = .serving →
    let n := ch.toNat
    let q := getCh s n
    let tells := fun (op status : Nat) (data : List Byte) (P : State → Prop) (t : State) =>
      ∃ u, t = dataAnswer u op status jb.toNat cseq.toNat data ∧ P u
    let away := fun (status : Nat) => (Answers (.dataWrite ch jb addr bs cseq) s (tells 2 status [] (· = s))) ∧
      Answers (.dataRead ch jb addr len cseq) s (tells 4 status [] (· = s))
    (64 ≤ jb.toNat ∨ (getJob s jb.toNat).st = .free → away 0x31) ∧
    (jb.toNat < 64 → (getJob s jb.toNat).st = .running → q.st ≠ .serving → away 0x32) ∧
    (jb.toNat < 64 → (getJob s jb.toNat).st = .running → q.st = .serving →
      (addr.toNat % 32 ≠ 0 → away 0x33) ∧
      (dataRange addr.toNat bs.length = true → dataRange addr.toNat len.toNat = true → regionAt q jb.toNat addr.toNat = none → away 0x29) ∧
      (∀ x a, dataRange addr.toNat bs.length = true → translate s n jb.toNat addr.toNat bs.length true true = .ok x → x.dests = [a] → x.top = none →
        x.stale = [] → a.dev = ownDev s → a.ch = n → a.tier = 1 → rangeThere s n 1 a.addr bs.length = true → q.reqs = [] →
        Answers (.dataWrite ch jb addr bs cseq) s (tells 2 0x00 [] fun u => OnlyChannel { s with dict := u.dict } u n ∧
          u.dict = (dSet s (cIdx n 0x200) 3 (min (cGet s n 0x200 3 + Config.writeRetries n s.hub.time) 0xFFFFFFFF)).dict ∧
          (getCh u n).gddr = memWrite q.gddr a.addr bs ∧ (getCh u n).cores = q.cores ∧
          (jobOf (getCh u n) jb.toNat).inputs = (jobOf q jb.toNat).inputs ++
            [(((jobOf q jb.toNat).step.map (· + 1)).getD 0, ioEntry 1 addr.toNat bs.length bs)])) ∧
      (∀ x a, dataRange addr.toNat len.toNat = true → translate s n jb.toNat addr.toNat len.toNat false true = .ok x → x.dests = [a] → x.alt = none →
        a.dev = ownDev s → a.ch = n → a.tier = 1 → rangeThere s n 1 a.addr len.toNat = true →
        (Config.frameMeets n s.hub.time = 0 →
          Answers (.dataRead ch jb addr len cseq) s (tells 4 0x00 (memRead q.gddr a.addr len.toNat) (· = s))) ∧
        (Config.frameMeets n s.hub.time = 1 → Answers (.dataRead ch jb addr len cseq) s (tells 4 0x00 (memRead q.gddr a.addr len.toNat)
          (· = dSet s (cIdx n 0x200) 3 (min (cGet s n 0x200 3 + 1) 0xFFFFFFFF)))) ∧
        (2 ≤ Config.frameMeets n s.hub.time → s.hub.events.length < 8192 → Answers (.dataRead ch jb addr len cseq) s fun t =>
          Reports s t 0x0040 ∧ cGet t n 0x200 4 = min (cGet s n 0x200 4 + 1) 0xFFFFFFFF ∧ (getCh t n).gddr = q.gddr))) ∧
    (jb.toNat < 64 → (getJob s jb.toNat).st = .running → (getCh s (chOf c)).st = .serving → (getCore s c).job = jb.toNat →
      (getCore s c).status = .running → (queueOf (getCore s c) qn.toNat).shut = false → (queueOf (getCore s c) qn.toNat).reading = none →
      ∀ e, endsOf (getCore s c) qn.toNat = [e] → e.role = 1 → e.peerk = true → e.isOpen = true → msgLen bs.length = true →
      ((queueOf (getCore s c) qn.toNat).msgs.length < e.depth + 1 → Answers (.msgIn c jb qn bs cseq) s (tells 7 0x00 [] fun u => OnlyCore s u c ∧
        ∃ m, (queueOf (getCore u c) qn.toNat).msgs = (queueOf (getCore s c) qn.toNat).msgs ++ [m] ∧ m.2.payload = bs)) ∧
      ((queueOf (getCore s c) qn.toNat).msgs.length = e.depth + 1 → Answers (.msgIn c jb qn bs cseq) s (tells 7 0x41 [] (· = s)))) ∧
    (∀ r, oldestReq s = some (n, r) → q.reqs = [r] → r.core = none → r.rel = none → Answers .noAnswerTimeout s fun t =>
      t = dataAnswer (updCh s n fun k => { k with reqs := [] }) (if r.write = true then 2 else 4) 0x34 r.job r.cseq []) ∧
    (oldestReq s = none → Answers .noAnswerTimeout s (· = s))

/-! ### Jobs, objects, security and management -/

/-- R23, R238, R239, R241, R243, R249, R250, R340, R341, Tables 11.10 and 11.13: placement records are stored while the slot is FREE;
JOB_OPEN latches them; the manifest and the sections grow in order, and a frame out of order rejects the load with 0x05, bytes that fail a
check of what has come whole with its code; a ring chunk of a loaded job that is good stands in its block; a seed, a launch count and a
barrier are taken where the rules allow, a barrier that runs goes on; a rejected slot is released to FREE, and a release while the load is
received rejects it with 0xA1. -/
def Obligations.JobSlots : Prop :=
  ∀ (s : State) (j : JobSlot) (rq : Req) (bs : List Byte) (off : BitVec 40),
    let n := j.toNat
    let b := getJob s n
    let idx := 0x640 + n
    let here := fun (t : State) => getJob t n
    let only := fun (f : Job → Job) (t : State) => t = updJob s n f
    let rejected := fun (code : Nat) (t : State) => (here t).st = .rejected ∧ dGet t idx 3 / 2 ^ 120 = code
    (MayCommand s rq idx 7 → bs.length = 32 → allZero bs = false →
      (b.st = .free → dGet s idx 6 + 1 ≤ 8192 → Answers (.jobPlace rq j bs) s
        (Answered rq 0x00 [] (only fun x => { x with place := tabSet x.place (dGet s idx 6) bs }))) ∧
      (b.st ≠ .free → Answers (.jobPlace rq j bs) s (Answered rq 0x09 [] (· = s)))) ∧
    (MayCommand s rq idx 2 →
      (b.st = .free → Answers (.jobOpen rq j 1) s (Answered rq 0x00 [] (only fun x => { Job.reset with
        st := .receiving, place := x.place, latched := x.place.filter fun e => fld e.2 0 1 != 0 }))) ∧
      (b.st ≠ .free → Answers (.jobOpen rq j 1) s (Answered rq 0x09 [] (· = s)))) ∧
    (s.hub.st = .ready →
      (b.st = .receiving → b.accepted = false → off.toNat = b.manifest.length → b.manifest.length + bs.length < 256 → b.hdrOk = false →
        let m := b.manifest ++ bs
        let found := arrivedRej (checkHeader m (dGet s 0x600 2 = 1)) b.manifest.length m.length
        (found = none → Answers (.manifest j off bs) s (only fun x => { x with manifest := m })) ∧
        (∀ r, found = some r → Answers (.manifest j off bs) s (rejected (rejBits r / 2 ^ 120)))) ∧
      (b.st = .receiving → off.toNat ≠ b.manifest.length → Answers (.manifest j off bs) s (rejected 0x05)) ∧
      (b.st = .ended → s.hub.events.length < 8192 → Answers (.manifest j off bs) s fun t => OnlyHub s t ∧ Reports s t 0x0022 ∧ here t = b) ∧
      (∀ (sec : BitVec 16) (e : Sec), b.st = .receiving → b.accepted = true → nextSmall b = some (sec.toNat, e) →
        off.toNat = (tabGet b.bodies [] sec.toNat).length → off.toNat + bs.length < e.length →
        Answers (.sectionBytes j sec off bs) s
          (only fun x => { x with bodies := tabSet x.bodies sec.toNat (tabGet b.bodies [] sec.toNat ++ bs) })) ∧
      (∀ (sec : BitVec 16) (m : Nat) (e : Sec), b.st = .receiving → nextSmall b = some (m, e) → m ≠ sec.toNat →
        Answers (.sectionBytes j sec off bs) s (rejected 0x05)) ∧
      (∀ (mask : BitVec 4) (sec : BitVec 16) (e : Sec) (c : CoreId), b.st = .loaded ∨ b.st = .running → b.secs[sec.toNat]? = some e → e.type = 0x10 →
        off.toNat < chunkCount e.length → chunkCores b e mask = [(chOf c, inCh c)] → bs.length = min 8192 (e.length - 8192 * off.toNat) →
        sm3 bs = chunkHash b.manifest b.secs sec.toNat off.toNat → off.toNat ≤ (getCore s c).pin / 256 + 15 →
        Answers (.chunk j mask sec off bs) s (CoreBecomes s · c (writeChunk off.toNat (rowsOf bs) (getCore s c)))) ∧
      (∀ (mask : BitVec 4) (sec : BitVec 16), b.st = .ended → s.hub.events.length < 8192 → Answers (.chunk j mask sec off bs) s fun t =>
        OnlyHub s t ∧ Reports s t 0x0024 ∧ here t = b)) ∧
    (∀ (val : BitVec 64) (x : Seed), MayCommand s rq idx 9 → tabFind b.seeds (dGet s idx 8) = some x →
      (x.mode = 2 → b.launched = false → Answers (.jobSeed rq j val) s
        (Answered rq 0x00 [] (only fun y => { y with seeds := tabSet y.seeds (dGet s idx 8) { x with value := val, set := true } }))) ∧
      (x.mode ≠ 2 ∨ b.launched = true → Answers (.jobSeed rq j val) s (Answered rq 0x09 [] (· = s)))) ∧
    (∀ count : BitVec 64, MayCommand s rq idx 10 → b.st = .loaded ∨ b.st = .running → seedsMissing b = false →
      ((∀ ch ∈ jobHere b, (getCh s ch).ft ≤ count.toNat) → Answers (.jobLaunch rq j count) s
        (Answered rq 0x00 [] (only fun x => { x with launch := count.toNat, launched := true }))) ∧
      (∀ ch ∈ jobHere b, count.toNat < (getCh s ch).ft → s.hub.events.length < 8192 → Answers (.jobLaunch rq j count) s
        (Answered rq 0x09 [] fun u => OnlyHub s u ∧ Reports s u 0x0010 ∧ here u = b))) ∧
    (MayCommand s rq idx 12 → b.st = .loaded → b.barrier = none → seedsMissing b = false → otherModules s n = [] →
      Answers (.jobBarrier rq j 1) s (Answered rq 0x00 [] fun u => u.ch = s.ch ∧ (here u).launched = true ∧
        ∃ time, (here u).barrier = some time ∧ s.hub.time ≤ time)) ∧
    (MayCommand s rq idx 12 → b.st = .loaded → b.barrier ≠ none → Answers (.jobBarrier rq j 1) s (Answered rq 0x00 [] (· = s))) ∧
    (MayCommand s rq idx 13 →
      (b.st = .rejected → Answers (.jobRelease rq j 1) s (Answered rq 0x00 [] fun u => here u = Job.reset ∧
        ∀ ch c, (coreOf (getCh u ch) c).job ≠ n ∨ (coreOf (getCh u ch) c).status = .noTask ∨ 4 ≤ ch)) ∧
      (b.st = .receiving → Answers (.jobRelease rq j 1) s (Answered rq 0x00 [] (rejected 0xA1))) ∧
      (b.st = .loaded ∨ b.st = .running ∨ b.st = .free → Answers (.jobRelease rq j 1) s (Answered rq 0x09 [] (· = s))))

/-- R348, R353, R354, R374, R375, R379, R380, R382, R275, Table 15.9: a read that no gate refuses is answered with the object's bytes and changes
nothing; a write that a gate refuses is answered with its code alone, one of a plain setting stores it; a quote is signed over the state; an owner
key needs its signature and is counted; a package is verified; a management program that passes runs. -/
def Obligations.ObjectsAndSecurity : Prop :=
  ∀ (s : State) (rq : Req) (idx : BitVec 16) (sub : Byte) (bs : List Byte) (code : Nat) (o : Obj),
    portUp s rq = true → absentPort idx.toNat = false →
    (reachGate s rq idx.toNat sub.toNat false = some code → Answers (.dictRead rq idx sub) s (Answered rq code [] (· = s))) ∧
    (reachGate s rq idx.toNat sub.toNat false = none → objFind idx.toNat sub.toNat = some o →
      (o.acc = .wo → Answers (.dictRead rq idx sub) s (Answered rq 0x03 [] (· = s))) ∧
      (o.acc ≠ .wo → idx.toNat < 0x1000 → idx.toNat ≠ 0x0401 → idx.toNat ≠ 0x0402 → idx.toNat ≠ 0x0110 → idx.toNat ≠ 0x0111 →
        dictBytes s o idx.toNat sub.toNat 0 = .ok bs → Answers (.dictRead rq idx sub) s (Answered rq 0x00 bs (· = s)))) ∧
    (writeGate s rq idx.toNat sub.toNat = some code → Answers (.dictWrite rq idx sub bs) s (Answered rq code [] (· = s))) ∧
    (writeGate s rq idx.toNat sub.toNat = none → objFind idx.toNat sub.toNat = some o → o.acc ≠ .rws →
      (valueGate o bs = some code → Answers (.dictWrite rq idx sub bs) s (Answered rq code [] (· = s))) ∧
      (valueGate o bs = none → idx.toNat < 0x1000 → modWrite s rq idx.toNat sub.toNat bs = none →
        Answers (.dictWrite rq idx sub bs) s (Answered rq 0x00 [] (· = dSet s idx.toNat sub.toNat (leNat bs))))) ∧
    (∀ mask : BitVec 64, mgmtHears s rq = true →
      (quoteRefused s rq mask.toNat = true → Answers (.quoteReq rq bs mask) s (· = quoteAnswer s rq 0x05 [])) ∧
      (quoteRefused s rq mask.toNat = false → Answers (.quoteReq rq bs mask) s
        (· = quoteAnswer { s with free := s.free + 1 } rq 0x00 (quote s s.free bs mask.toNat)))) ∧
    (∀ (n : BitVec 2) (key sig : List Byte), writeGate s rq 0x0301 (n.toNat + 1) = none →
      Answers (.secOwnerKey rq n key sig) s fun t => match ownerRefusal s rq (n.toNat + 1) key sig with
        | some e => Answered rq e [] (· = s) t
        | none => Answered rq 0x00 [] (fun u => u.hub = { s.hub with rwsCount := s.hub.rwsCount + 1 } ∧ u.ch = s.ch ∧
            ownerKey u (n.toNat + 1) = key) t) ∧
    (writeGate s rq 0x0510 4 = none → Answers (.tpkVerify rq 1) s (Answered rq 0x00 [] fun u => u.ch = s.ch ∧ u.dict = s.dict ∧
      tpkState u (dGet s 0x0510 1) = if packageOk s (tpkBytes s (dGet s 0x0510 1)) = true then 2 else 3)) ∧
    (writeGate s rq 0x0121 4 = none →
      dGet s 0x0121 1 ≠ 3 → Answers (.mgtProgGo rq 1) s (Answered rq 0x00 [] fun u => u.ch = s.ch ∧
        match progRefusal s (progBytes s) with
        | some e => dGet u 0x0121 1 = 4 ∧ dGet u 0x0121 5 = e
        | none => dGet u 0x0121 1 = 3 ∧ dGet u 0x0121 5 = 0 ∧ dGet u 0x0000 12 = leNat (slice (progBytes s) 32 32)))

/-- R369 to R373, Tables 17.2 and 17.3: a DICT_REQ read or write is the dictionary's; EVENT_FETCH takes records oldest first; a message of another kind
is counted and dropped; the I3C commands set and give the addresses, lengths and identity; a control message is answered on the bus. The layouts of
I3C and MCTP are the model's (PRESUMED: assumption log, 26). -/
def Obligations.ManagementPort : Prop :=
  ∀ (s : State) (m : List Byte) (addr st : BitVec 7) (len : BitVec 16) (ev eid ty : Byte) (op : BitVec 2),
    s.hub.st ≠ .off →
    let g := s.hub.mgmt
    let becomes := fun (x : Mgmt) (t : State) => t = { s with hub := { s.hub with mgmt := x } }
    let gives := fun (i : Instr) (bs : List Byte) => Answers i s (becomes (if g.dyn = 0 then g else { g with ccc := g.ccc ++ [bs] }))
    let replies := fun (i : Instr) (cmd : Nat) (bs : List Byte) => Answers i s
      (becomes { g with answers := g.answers ++ [[0x00, 0x00] ++ leBytes 1 cmd ++ bs] })
    (g.eid ≠ 0 → vendorBad m = false →
      (fld m 5 1 = 1 → 17 ≤ m.length → fld m 9 1 = 1 → Answers (.dictReq m) s fun t =>
        exec (.dictRead ⟨.mgmt, BitVec.ofNat 32 (fld m 6 1)⟩ (BitVec.ofNat 16 (fld m 11 2)) (BitVec.ofNat 8 (fld m 13 1))) s = .next t) ∧
      (fld m 5 1 = 1 → fld m 9 1 = 2 → m.length = 17 + fld m 15 2 → Answers (.dictReq m) s fun t =>
        exec (.dictWrite ⟨.mgmt, BitVec.ofNat 32 (fld m 6 1)⟩ (BitVec.ofNat 16 (fld m 11 2)) (BitVec.ofNat 8 (fld m 13 1)) (m.drop 17)) s = .next t) ∧
      (∀ n, fld m 5 1 = 3 → fld m 9 1 = n → 1 ≤ n → n ≤ 64 → Answers (.eventFetch m) s (becomes { g with
        store := g.store.drop n, lost := 0
        answers := g.answers ++ [vendorMsg 4 (fld m 6 1) 0
          (leBytes 1 (g.store.take n).length ++ leBytes 2 g.lost ++ [0] ++ (g.store.take n).flatten)] }))) ∧
    (g.eid ≠ 0 → vendorBad m = true → Answers (.dictReq m) s (· = dSat s 0x0120 5 1) ∧ Answers (.eventFetch m) s (· = dSat s 0x0120 5 1)) ∧
    (g.dyn = 0 → Answers (.entdaa addr) s (becomes { g with dyn := addr.toNat, ccc := g.ccc ++ [provisionalId ++ [busChar, Config.i3cDcr]] })) ∧
    (g.dyn ≠ 0 → Answers (.entdaa addr) s (becomes g)) ∧
    (g.dyn = 0 → Answers (.setdasa st addr) s (becomes (if st.toNat = 0x30 + s.hub.boardPos then { g with dyn := addr.toNat } else g))) ∧
    Answers .rstdaa s (becomes { g with dyn := 0 }) ∧
    gives .getpid provisionalId ∧ gives .getbcr [busChar] ∧ gives .getdcr [Config.i3cDcr] ∧
    gives .getstatus [0, if g.ibi = false ∧ g.answers ≠ [] then 1 else 0] ∧
    gives .getmrl (beBytes 2 g.mrl) ∧ gives .getmwl (beBytes 2 g.mwl) ∧
    Answers (.setmrl len) s (becomes { g with mrl := len.toNat }) ∧ Answers (.setmwl len) s (becomes { g with mwl := len.toNat }) ∧
    Answers (.enec ev) s (becomes { g with ibi := g.ibi || ev.getLsbD 0 }) ∧
    Answers (.disec ev) s (becomes { g with ibi := g.ibi && !ev.getLsbD 0 }) ∧
    (op.toNat < 2 → eid ≠ 0 → eid ≠ 0xFF → Answers (.setEndpointId op eid) s
      (becomes { g with eid := eid.toNat, answers := g.answers ++ [[0x00, 0x00, 0x01, 0x00, 0x00, eid, 0x00]] })) ∧
    replies .getEndpointId 2 ([0x00] ++ leBytes 1 g.eid ++ [0x00, 0x00]) ∧
    (ty ≠ 0xFF → ty ≠ 0x00 → ty ≠ 0x7F → replies (.getMctpVersionSupport ty) 4 [0x80]) ∧
    (ty = 0x7F → ∃ bs, replies (.getMctpVersionSupport ty) 4 ([0x00] ++ bs)) ∧
    replies .getMessageTypeSupport 5 [0x00, 0x01, 0x7F] ∧
    replies (.getVendorMsgSupport 0) 6 ([0x00, 0xFF, 0x01] ++ beBytes 4 61873 ++ beBytes 2 Config.vendorSet.toNat)

/-- R204, R206, R213, R262, R263, R270, R272, R276, R277, R364: a map write that no rule refuses is applied where no job runs in it, and
staged where one does; an ordered revoke of the newest step not cleared starts a generation with its replay count, and one after COMMIT does
nothing; a clean FAILED position becomes the spare; a position is seized, its task's core halted with 0xA2 and fenced; a window is armed,
opens, takes a result a record, a wrong one with a signature and a count, and closes, its position what it was; a commanded halt waits for
the row-word boundary. -/
def Obligations.CheckingAndMaps : Prop :=
  ∀ (s : State) (ch : ChId) (rq : Req) (bs : List Byte) (v : Byte),
    let n := ch.toNat
    let q := getCh s n
    let may := fun (off sub : Nat) => MayCommand s rq (cIdx n off) sub
    let only := fun (f : Channel → Channel) (t : State) => t = updCh s n f
    (∀ (i : BitVec 6) (raw : BitVec 128), may 0x301 (i.toNat + 1) → bs = leBytes 16 raw.toNat → bit raw.toNat 127 = true →
      (regionRefused s n i.toNat (regionOf raw.toNat) = false → regionUser s n i.toNat (some (regionOf raw.toNat)) = none →
        Answers (.famRegionWrite rq ch i bs) s
          (Answered rq 0x00 [] (only fun k => { k with regions := tabSet k.regions i.toNat (regionOf raw.toNat) }))) ∧
      (regionRefused s n i.toNat (regionOf raw.toNat) = true → regionUser s n i.toNat (some (regionOf raw.toNat)) = none →
        Answers (.famRegionWrite rq ch i bs) s (Answered rq 0x09 [] (· = dSat s (cIdx n 0x300) 4 1))) ∧
      (∀ j, regionUser s n i.toNat (some (regionOf raw.toNat)) = some j → famBad (famView s n (some j)) n (.region i.toNat raw) = false →
        stagingRoom q (.region i.toNat raw) = true → Answers (.famRegionWrite rq ch i bs) s
          (Answered rq 0x00 [] (only fun k => { k with staged := k.staged ++ [(j, .region i.toNat raw)] })))) ∧
    (∀ (at_ : Nat) (e : BitVec 64), may 0x302 3 → cGet s n 0x302 1 = at_ → at_ < 524288 → bs = leBytes 8 e.toNat → e ≠ 0 →
      (entryWriteRefused s n at_ e.toNat = false → entryUser s n at_ = none → Answers (.famWinData rq ch bs) s
        (Answered rq 0x00 [] (only fun k => { k with famMap := tabSet k.famMap at_ e }))) ∧
      (entryWriteRefused s n at_ e.toNat = true → entryUser s n at_ = none →
        Answers (.famWinData rq ch bs) s (Answered rq 0x09 [] (· = dSat s (cIdx n 0x300) 4 1))) ∧
      (∀ j, entryUser s n at_ = some j → famBad (famView s n (some j)) n (.entry at_ e) = false → stagingRoom q (.entry at_ e) = true →
        Answers (.famWinData rq ch bs) s (Answered rq 0x00 [] (only fun k => { k with staged := k.staged ++ [(j, .entry at_ e)] })))) ∧
    (∀ j m, may 0x701 2 → cGet s n 0x701 1 = j → j < 64 → (jobOf q j).placed = true → (getJob s j).released = m + 1 →
      (commitSent s n j m = false → (jobOf q j).step = some m → (jobOf q j).gotCommit ≤ m → (∀ c, (coreOf q c).pendHalt = none) →
        siblings s n j = [] → otherModules s j = [] → (jobOf q j).acted < cGet s n 0x700 5 →
        Answers (.chkRevokeGo rq ch 1) s (Answered rq 0x00 [] fun u => (jobOf (getCh u n) j).gen = (jobOf q j).gen + 1 ∧
          (jobOf (getCh u n) j).revoke = some ⟨m, (jobOf q j).gen + 1, q.ft + cGet s n 0x700 6, .draining, [], []⟩)) ∧
      (commitSent s n j m = true → Answers (.chkRevokeGo rq ch 1) s (Answered rq 0x00 [] (· = s)))) ∧
    (may 0x703 1 → v.toNat % 32 ≤ 16 → let key := posKey (v.toNat / 32) (v.toNat % 32)
      (posState q (v.toNat / 32) (v.toNat % 32) = .failed → tabGet q.posClean false key = true → Answers (.chkPosRestore rq ch v) s
        (Answered rq 0x00 [] fun u => { getCh u n with posSt := q.posSt } = q ∧ posState (getCh u n) (v.toNat / 32) (v.toNat % 32) = .spareFree)) ∧
      (posState q (v.toNat / 32) (v.toNat % 32) ≠ .failed → Answers (.chkPosRestore rq ch v) s (Answered rq 0x09 [] (· = s)))) ∧
    (may 0x703 2 → v.toNat % 32 ≤ 16 → q.seize = none →
      ((∀ m, coreAt q (v.toNat / 32) (v.toNat % 32) = some m → (coreOf q m).status = .noTask) → Answers (.chkSeizePos rq ch v) s
        (Answered rq 0x00 [] fun u => getCh u n = { q with seize := some ⟨posKey (v.toNat / 32) (v.toNat % 32), none⟩ })) ∧
      (∀ m, coreAt q (v.toNat / 32) (v.toNat % 32) = some m → (coreOf q m).status = .running → Answers (.chkSeizePos rq ch v) s
        (Answered rq 0x00 [] fun u => (getCh u n).seize = some ⟨posKey (v.toNat / 32) (v.toNat % 32), some m⟩ ∧
          (coreOf (getCh u n) m).status = .halted ∧ (coreOf (getCh u n) m).grip = .fenced ∧
          (coreOf (getCh u n) m).halt.map (·.reason) = some 0xA2))) ∧
    (∀ p start stop pkg, may 0x705 5 → cGet s n 0x705 1 = p → cGet s n 0x705 2 = start → cGet s n 0x705 3 = stop → cGet s n 0x705 4 = pkg →
      p % 32 ≤ 16 → (∀ m, coreAt q (p / 32) (p % 32) = some m → (coreOf q m).status = .noTask ∨ (coreOf q m).job = 0xFFFF) → q.insps = [] →
      (start < stop → Answers (.chkInspArm rq ch 1) s (Answered rq 0x00 [] fun u => { getCh u n with insps := [] } = q ∧
        ∃ w : Insp, (getCh u n).insps = [w] ∧ w.pos = posKey (p / 32) (p % 32) ∧ w.start = start ∧ w.stop = stop ∧ w.pkg = pkg ∧
          w.open_ = false ∧ w.run = 0 ∧ w.failed = 0 ∧ w.was = posState q (p / 32) (p % 32))) ∧
      (stop ≤ start → Answers (.chkInspArm rq ch 1) s (Answered rq 0x09 [] (· = s)))) ∧
    (∀ w, q.insps = [w] →
      (w.open_ = false → w.start ≤ q.ft → Answers (.inspectionWindowStart ch) s (only fun k => { k with
        posSt := tabSet k.posSt w.pos .inspecting, insps := [{ w with open_ := true, began := k.ft }] })) ∧
      (w.open_ = true → tpkState s w.pkg = 2 → w.next < tpkCount (tpkBytes s w.pkg) →
        w.began + 200000 / max 1 q.mhz < w.stop →
        let right := slice (tpkRecord (tpkBytes s w.pkg) w.next) 4352 (resultLen (fld (tpkRecord (tpkBytes s w.pkg) w.next) 7 1))
        (bs = right → Answers (.patternResult ch bs) s
          (only fun k => { k with insps := [{ w with next := w.next + 1, began := q.ft, run := w.run + 1 }] })) ∧
        (bs ≠ right → Answers (.patternResult ch bs) s fun t => tabFind (getCh t n).posFail w.pos = some q.ft ∧
          ((getCh t n).fsigs.length = min 64 (q.fsigs.length + 1)) ∧ cGet t n 0x704 4 = min (cGet s n 0x704 4 + 1) 0xFFFFFFFF)) ∧
      (w.open_ = true → posState q (keyPos w.pos).1 (keyPos w.pos).2 = .inspecting → w.stop ≤ q.ft → w.failed = 0 →
        Answers (.inspectionWindowClose ch) s fun t => OnlyChannel s t n ∧
        (getCh t n).insps = [] ∧ tabFind (getCh t n).posSt w.pos = some w.was ∧ (getCh t n).cores = q.cores ∧
        (getCh t n).inspRes = leBytes 4 w.run ++ leBytes 4 0 ++ leBytes 4 (w.firstBad.getD 0xFFFFFFFF) ++ leBytes 4 q.ft)) ∧
    ∀ c : CoreId, may 0x600 11 → rq.port = .mgmt → cGet s n 0x600 1 = inCh c → chOf c = n → (getCore s c).status = .running → brakeNow q = false →
      (getCore s c).pendHalt = none → Answers (.cwHaltCmd rq ch v) s (Answered rq 0x00 [] (CoreBecomes s · c
        { getCore s c with pendHalt := some ⟨(getCore s c).sched, 0xA6, false, 7, (getCore s c).pc⟩ }))

/-! ### Transitions and the journal -/

/-- R18, R19, R361, R363, R387 to R389, R391, R396, Tables 18.1 and 18.3: which request a channel takes in which state, what it is at the
end of each transition, and how the module passes between Off, Standby, Ready and Serving; without power a channel keeps its CXL memory
alone (R196; assumption log, 109); readings are stored in every powered state. -/
def Obligations.ChannelAndModuleStates : Prop :=
  ∀ (s : State) (ch : ChId) (rq : Req) (r : Readings) (pos : BitVec 2),
    let n := ch.toNat
    let q := getCh s n
    let ask := fun (i : Instr) (code : Nat) (P : State → Prop) => Answers i s (Answered rq code [] P)
    let dark := ∀ m p, m < 4 → p < 8 → (getPort (getCh s m) p).st = .disabled ∧ dGet s (lnkIdx m p) 1 = 0
    let unlit := tabMap s.ch fun _ k => { Channel.reset with cxl := k.cxl }
    (MayCommand s rq (cIdx n 0) 3 → s.hub.jobs = [] → s.hub.jnl.buffer = [] → dark →
      (q.st = .serving → q.req = 0 → ask (.chIsolate rq ch) 0x00 fun u => (getCh u n).req = 1 ∧ (getCh u n).transAt = s.hub.time ∧
        (getCh u n).st = .serving) ∧
      (q.st = .serving → q.req = 0 → ask (.chReload rq ch) 0x00 fun u => (getCh u n).req = 2 ∧ (getCh u n).st = .reloading ∧
        (getCh u n).gddr = q.gddr ∧ ∀ c, (coreOf (getCh u n) c).status = .noTask ∨ (coreOf (getCh u n) c).status = .unavailable) ∧
      (q.st = .serving → q.req = 0 → ask (.chReset rq ch) 0x00 fun u => (getCh u n).req = 3 ∧ (getCh u n).st = .resetting) ∧
      (q.st = .isolated → q.req = 0 → ask (.chServe rq ch) 0x00 fun u => (getCh u n).req = 4 ∧ (getCh u n).st = .isolated) ∧
      (q.st = .isolated → q.req = 0 → ask (.chIsolate rq ch) 0x09 (· = s)) ∧
      (q.st = .serving → q.req = 0 → ask (.chServe rq ch) 0x09 (· = s)) ∧
      (q.req ≠ 0 → ask (.chServe rq ch) 0x00 (· = updCh s n fun k => { k with heldReq := 4 }))) ∧
    (s.hub.st = .ready → s.hub.jobs = [] → q.heldReq = 0 → dark →
      (q.st = .isolated → q.req = 4 → Answers (.chTransitionComplete ch) s fun t => (getCh t n).st = .serving ∧ (getCh t n).req = 0 ∧
        t.hub.st = .serving ∧ (getCh t n).gddr = q.gddr) ∧
      (q.st = .resetting → Answers (.chTransitionComplete ch) s fun t => (getCh t n).st = .isolated ∧ (getCh t n).gddr = [] ∧
        (getCh t n).cores = [] ∧ (getCh t n).ft = q.ft ∧ cGet t n 0 6 = min (cGet s n 0 6 + 1) 0xFFFFFFFF)) ∧
    (s.hub.st = .serving → s.hub.jobs = [] → q.heldReq = 0 → q.st = .serving → q.req = 1 → Answers (.chTransitionComplete ch) s fun t =>
      (getCh t n).st = .isolated ∧ (getCh t n).req = 0 ∧ (getCh t n).gddr = q.gddr ∧ (getCh t n).selfRef = true) ∧
    (MayCommand s rq 0x0200 2 → s.hub.modReq = 0 →
      (s.hub.st = .ready → s.hub.jnl.isOpen = false → s.hub.jnl.sealing = false → (∀ m, m < 4 → (getCh s m).st = .isolated ∧ (getCh s m).req = 0) →
        ask (.modStandbyRequest rq) 0x00 (· = updHub s fun h => { h with modReq := 1, transAt := h.time })) ∧
      (s.hub.st = .standby → ask (.modStandbyRequest rq) 0x09 (· = s)) ∧
      (s.hub.st = .standby → 40000 ≤ dGet s 0x0201 1 → dGet s 0x0201 1 ≤ 60000 →
        ask (.modReadyRequest rq) 0x00 (· = updHub s fun h => { h with modReq := 2, transAt := h.time })) ∧
      (s.hub.st = .standby → dGet s 0x0201 1 < 40000 ∨ 60000 < dGet s 0x0201 1 → ask (.modReadyRequest rq) 0x09 (· = s))) ∧
    (s.hub.modReq = 2 → s.hub.st = .standby → s.hub.bays = [] → Answers .modTransitionComplete s fun t => t.hub.st = .ready ∧ t.hub.modReq = 0 ∧
      t.hub.jobs = [] ∧ ∀ m, m < 4 → (getCh t m).st = .resetting ∧ (getCh t m).gddr = []) ∧
    (s.hub.modReq = 1 → s.hub.st = .ready → Answers .modTransitionComplete s fun t => t.hub.st = .standby ∧ t.ch = unlit ∧ t.hub.cause = 2 ∧
      t.hub.nonce = s.hub.nonce) ∧
    (MayCommand s rq 0x0200 3 → s.hub.st = .ready → s.hub.bays = [] → Answers (.modHubReset rq 1) s fun t => t.hub.st = .ready ∧ t.hub.jobs = [] ∧
      (∀ m, m < 4 → (getCh t m).st = .resetting) ∧ dGet t 0x0500 1 = 1 ∧ t.free = s.free + 1) ∧
    (s.hub.st = .off → Answers (.auxPowerUp pos) s fun t => t.hub.st = .standby ∧ t.hub.boardPos = pos.toNat ∧ t.ch = unlit ∧ t.dict = []) ∧
    (s.hub.st ≠ .off → Answers (.auxPowerUp pos) s (· = s)) ∧
    Answers .auxPowerLoss s (fun t => t.hub.st = .off ∧ t.ch = unlit ∧ t.dict = [] ∧ t.hub.time = s.hub.time ∧ t.hub.jobs = []) ∧
    (s.hub.st = .ready ∨ s.hub.st = .serving → Answers .mainInputLoss s fun t => t.hub.st = .standby ∧ t.ch = unlit ∧ t.hub.cause = 3) ∧
    (s.hub.st = .standby → Answers .mainInputLoss s (· = updHub s fun h => { h with modReq := 0 })) ∧
    (s.hub.st = .standby → Answers (.throttleEvaluation r) s fun t => t.ch = s.ch ∧ dGet t 0x0201 1 = r.vinMain ∧ dGet t 0x0201 3 = r.pMain ∧
      dGet t 0x0201 7 = max (dGet s 0x0201 7) r.pMain ∧ t.hub = { s.hub with energy := s.hub.energy + r.pMain })

/-- R286, R288, R289, R292, R294 to R297, R302, Tables 13.7 and 13.10: a segment is sealed with its record and a receipt asked of the ACTIVE bay,
each command leaving as a frame; the receipt is stored; a cartridge inserted is asked who it is, for its certificates and for a signature over a
fresh nonce, and joins or is refused; an APPEND answered counts and lets a command that waited leave, one that met a bad frame is sent again with
its TAG and counted, the sixteenth within a second and any other answer lose the bay; a bay ejected, removed or silent takes its state. -/
def Obligations.JournalAndBays : Prop :=
  ∀ (s : State) (b : BitVec 1) (rq : Req) (tag : BitVec 16) (bs : List Byte),
    let n := b.toNat
    let y := getBay s n
    let bay := fun (t : State) => getBay t n
    let j := s.hub.jnl
    let others := ∀ m, (getBay s m).ready = false
    let quiet := j.isOpen = false ∧ j.sealing = false ∧ j.recovering = false ∧ others
    let alone := s.hub.bays = [(n, y)] ∧ y.reads = [] ∧ quiet ∧ j.pend = []
    let frame := fun (c : BayCmd) =>
      let f := leBytes 1 c.code ++ [0] ++ leBytes 2 c.tag ++ leBytes 4 c.pay.length ++ leBytes 8 c.arg ++ padTo ((c.pay.length + 3) / 4 * 4) c.pay
      f ++ leBytes 4 (crc32c f)
    let sends := fun (cs : List BayCmd) (t : State) => t.hub.bayOut = s.hub.bayOut ++ cs.map fun c => (n, frame c)
    let sealed := fun (t : State) => t.hub.jnl.isOpen = false ∧ t.hub.jnl.sealing = true ∧ t.hub.jnl.seq = j.seq + 1 ∧ t.ch = s.ch ∧
      ∃ c1 c2, (bay t).cmds = [c1, c2] ∧ sends [c1, c2] t ∧ c1.code = 0x10 ∧ c2.code = 0x11 ∧ c1.pay.length = 192 ∧
        slice c1.pay 64 48 = leBytes 8 j.segRecs ++ leBytes 8 j.segBytes.length ++ sm3 j.segBytes ∧
        c2.arg = tabGet j.segStart 0 n ∧ c2.pay = leBytes 8 j.segBytes.length ++ sm3 j.segBytes
    (s.hub.bays = [(n, y)] → y.st = .active → y.cmds = [] → j.isOpen = true → j.sealing = false →
      Answers .segmentTimeLimit s sealed ∧
      (MayCommand s rq 0x0400 9 → Answers (.jnlSealNow rq 1) s (Answered rq 0x00 [] sealed)) ∧
      (MayCommand s rq (0x0401 + n) 5 → Answers (.bayEject rq b 1) s (Answered rq 0x00 [] fun u => (bay u).st = .ejecting ∧
        u.hub.jnl.isOpen = false ∧ u.hub.jnl.sealing = true ∧ u.ch = s.ch ∧ (bay u).cmds.map (·.code) = [0x10, 0x11]))) ∧
    (quiet → Answers .segmentTimeLimit s (· = s)) ∧
    (quiet → MayCommand s rq 0x0400 9 → Answers (.jnlSealNow rq 1) s (Answered rq 0x00 [] (· = s))) ∧
    (MayCommand s rq (0x0401 + n) 5 → y.st = .empty ∨ y.st = .ejecting ∨ y.st = .ejected →
      Answers (.bayEject rq b 1) s (Answered rq 0x00 [] (· = s))) ∧
    (MayCommand s rq (0x0401 + n) 5 → y.st = .refused → y.cmds = [] → alone →
      Answers (.bayEject rq b 1) s (Answered rq 0x00 [] fun u => (bay u).st = .ejected)) ∧
    (y.st = .empty → s.hub.st = .ready ∨ s.hub.st = .serving → Answers (.cartridgeInserted b) s fun t => (bay t).st = .identifying ∧
      (bay t).cmds.map (·.code) = [0x01, 0x02] ∧ (quiet → sends (bay t).cmds t) ∧ t.hub.jobs = s.hub.jobs) ∧
    (y.st = .empty → s.hub.st = .standby → Answers (.cartridgeInserted b) s fun t => bay t = { y with st := .identifying }) ∧
    (y.st ≠ .empty → Answers (.cartridgeInserted b) s (· = s)) ∧
    (s.hub.st = .standby → Answers (.cartridgeRemoved b) s (· = updBay s n fun _ => Bay.reset)) ∧
    (s.hub.st = .ready → y.st = .identifying → alone → Answers (.cartridgeRemoved b) s fun t => (bay t).st = .empty ∧ (bay t).cmds = []) ∧
    (s.hub.st = .ready → y.st = .active → s.hub.bays = [(n, y)] → y.reads = [] → j.recovering = false → j.pend = [] → j.held = [] →
      Answers (.cartridgeRemoved b) s fun t => (bay t).st = .empty ∧ t.hub.jnl.isOpen = false ∧ t.hub.jnl.sealing = false) ∧
    (∀ c, y.cmds = [c] → c.tag = tag.toNat → c.code = 0x10 →
      (y.queued = [] → j.pend = [] → Answers (.appendResponse b tag 0) s fun t => t = updBay s n fun x =>
        { x with cmds := [], written := x.written + c.pay.length }) ∧
      (∀ d r, y.queued = d :: r → j.pend = [] → Answers (.appendResponse b tag 0) s fun t => (bay t).queued = r ∧ sends [d] t ∧
        (bay t).cmds = [{ d with sent := s.hub.time }] ∧ (bay t).written = y.written + c.pay.length) ∧
      (∀ r, y.queued = [] → j.pend = [r] → r.waits = [65536 * n + c.tag] → Answers (.appendResponse b tag 0) s fun t =>
        t.hub.jnl.pend = [] ∧ ∀ ch k m, r.step = some (ch, k, m) → ∀ x ∈ (jobOf (getCh t ch) k).commits,
          x.step = m → x.accepted = true ∧ x.seq = r.seq) ∧
      (y.crcAt.length < 15 ∨ y.crcAt.getD 14 0 + 1000000000 < s.hub.time → Answers (.appendResponse b tag 1) s fun t =>
        (bay t).cmds = [{ c with sent := s.hub.time }] ∧ sends [c] t ∧ (bay t).crcAt = (s.hub.time :: y.crcAt).take 16 ∧
        dGet t (0x0401 + n) 9 = min (dGet s (0x0401 + n) 9 + 1) 0xFFFFFFFF) ∧
      (15 ≤ y.crcAt.length → s.hub.time ≤ y.crcAt.getD 14 0 + 1000000000 → alone → Answers (.appendResponse b tag 1) s fun t =>
        (bay t).st = .linkFault) ∧
      (∀ st : Byte, st ≠ 0 → st ≠ 1 → alone → Answers (.appendResponse b tag st) s fun t => (bay t).st = .linkFault ∧ (bay t).cmds = [])) ∧
    (∀ c, y.cmds = [c] → c.tag = tag.toNat → y.queued = [] →
      let answers := fun (st : Byte) => Answers (.cartridgeResponse b tag st bs) s
      (c.code ≠ 0x10 → y.crcAt.length < 15 → answers 1 fun t => (bay t).cmds = [{ c with sent := s.hub.time }] ∧ sends [c] t) ∧
      (c.code = 0x01 → bs.length = 128 → fld bs 32 1 = 0 → answers 0 fun t => t.ch = s.ch ∧ bay t = { y with
        cmds := [], serial := slice bs 0 16, cap := fld bs 16 8, written := fld bs 24 8, key := BitVec.ofNat 512 (beNat (slice bs 64 64)) }) ∧
      (c.code = 0x01 → bs.length ≠ 128 ∨ fld bs 32 1 ≠ 0 → quiet → answers 0 fun t => (bay t).st = .refused) ∧
      (c.code = 0x02 → bs.length = 4096 → answers 0 fun t => (bay t).cert = y.cert ++ bs ∧ ∃ d : BayCmd, (bay t).cmds = [d] ∧ sends [d] t ∧
        d.code = 0x02 ∧ d.arg = y.cert.length + 4096) ∧
      (c.code = 0x02 → bs.length < 4096 →
        (Config.chainOk (y.cert ++ bs) = true → Config.chainKey (y.cert ++ bs) = y.key → answers 0 fun t => (bay t).nonce = Config.entropy s.free ∧
          t.free = s.free + 1 ∧ ∃ d : BayCmd, (bay t).cmds = [d] ∧ sends [d] t ∧ d.code = 0x03 ∧ d.pay = beBytes 32 (Config.entropy s.free).toNat) ∧
        (Config.chainOk (y.cert ++ bs) = false → quiet → answers 0 fun t => (bay t).st = .refused)) ∧
      (c.code = 0x03 → quiet →
        let good := sm2Verify (beBytes 64 y.key.toNat) (sm3 (beBytes 32 y.nonce.toNat ++ y.serial ++ leBytes 8 y.written)) bs
        (good = false → answers 0 fun t => (bay t).st = .refused) ∧
        (good = true → s.hub.bays = [(n, y)] → y.st = .identifying → j.buffer = [] → j.held = [] → j.gaps = [] → 400 < dGet s 0x0400 7 →
          y.written + (2 * dGet s 0x0400 7 + 1048576) ≤ y.cap → answers 0 fun t => (bay t).st = .active ∧ t.hub.jnl.isOpen = true)) ∧
      (c.code = 0x11 → j.sealing = false → answers 0 fun t => dGet t (0x0401 + n) 8 = leNat bs ∧ t.ch = s.ch ∧
        (bay t).receipt = BitVec.ofNat 512 (beNat (padTo 64 bs)) ∧ tabFind t.hub.jnl.receipts n = some (BitVec.ofNat 512 (beNat (padTo 64 bs)))) ∧
      (c.code = 0x20 → y.reads = [(c.tag, rq)] → answers 0 fun t => (bay t).reads = [] ∧
        t = answer (updBay s n fun x => { x with cmds := [], reads := [] }) rq 0x00 bs)) ∧
    (y.st = .identifying → alone → Answers (.cartridgeLinkTimeout b) s fun t => (bay t).st = .linkFault ∧ (bay t).cmds = []) ∧
    (y.st = .empty ∨ y.st = .linkFault → Answers (.cartridgeLinkTimeout b) s (· = s)) ∧
    (∀ m, activeBays s = [m] → s.hub.events.length < 8192 → Answers .singleBayWarning s fun t => Reports s t 0x0070 ∧ t.ch = s.ch ∧
      t.hub.jnl.lastWarn = s.hub.time) ∧
    ((activeBays s).length ≠ 1 → Answers .singleBayWarning s (· = s))

/-! ### Encodings, reset and memory -/

/-- R25, Tables 2.1, 2.2, 2.4, 2.8, 2.9, 2.11, 4.3, 5.2, 8.2: the word of a well-formed slot instruction fits its slot and decodes to that instruction,
and a word that decodes to an instruction is that instruction's word: no bit of an encoding is dropped, and none is read twice. -/
def Obligations.SlotWordsRoundTrip : Prop :=
  (∀ (i : Instr) (n w : Nat), i.wf = true → encodeSlot i = some (n, w) →
    n < 7 ∧ w < 2 ^ slotWidth n ∧ ∃ c, decodeSlot c n w = .ok (some i.clean)) ∧
  ∀ (c : CoreId) (n w : Nat) (i : Instr), n < 7 → w < 2 ^ slotWidth n → decodeSlot c n w = .ok (some i) →
    encodeSlot i = some (n, w) ∧ i.wf = true ∧ i.clean = i

/-- Tables 2.2, 2.4, 2.8, 2.9, 2.11, 4.3, 5.2: words written out from the tables, one of each slot, and what each spells. -/
def Obligations.WordsOfTheTables : Prop :=
  ∀ c : CoreId,
    decodeSlot c 0 0x24000003 = .ok (some (.setc c 1 0 3)) ∧ decodeSlot c 0 0x14000005 = .ok (some (.loop c 1 false 0 0 5)) ∧
    decodeSlot c 1 0x88400400 = .ok (some (.li c 1 0x400)) ∧ decodeSlot c 1 0x60440010 = .ok (some (.addi c 1 1 16)) ∧
    decodeSlot c 1 0xC9200000 = .ok (some (.mtc c 1 2 0)) ∧ decodeSlot c 2 0x20110000 = .ok (some (.load c true 0 1 1 0 .clean)) ∧
    decodeSlot c 2 0x30200600 = .ok (some (.store c false 0 2 0 0x600)) ∧ decodeSlot c 3 0x180000000000 = .ok (some (.mclr c 0x100000000000)) ∧
    decodeSlot c 4 0x040000000000 = .ok (some (.vadd c 0)) ∧ decodeSlot c 5 0x30800000 = .ok (some (.sdue c 1 0 false 0)) ∧
    decodeSlot c 6 0x50030001 = .ok (some (.signal c 3 1)) ∧ decodeSlot c 0 0 = .ok none ∧ decodeSlot c 0 0xF0000000 = .error 0x01

/-- R355, R388, R389, Tables 5.8, 7.8, 14.14, 16.6, 16.8: after reset the module is in Standby, every object holds its Default, every channel is
Resetting, every port DOWN, and nothing waits; a stored engine control register holds its reset value. The general and vector registers at zero are
the model's choice (DESIGN CHOICE: assumption log, 4). -/
def Obligations.ResetState : Prop :=
  let s := State.reset
  s.pending = [] ∧ s.hub.st = .standby ∧ (∀ idx sub, dGet s idx sub = objDefault idx sub) ∧
    (∀ n, (getCh s n).st = .resetting ∧ (getCh s n).mhz = 850 ∧ (getCh s n).brake.isOn = false ∧ (getCh s n).siding = []) ∧
    (∀ n p, (getPort (getCh s n) p).st = .down ∧ (getPort (getCh s n) p).rxSeq = 4095) ∧ (∀ j, (getJob s j).st = .free) ∧
    (∀ l, (getAhn s l).st = .dark ∧ (getAhn s l).rxSeq = 0xFFFF) ∧ (∀ b, (getBay s b).st = .empty) ∧ s.hub.events = [] ∧ s.hub.jnl.seq = 0 ∧
    ∀ c : CoreId, (getCore s c).status = .noTask ∧ (∀ r, gReg (getCore s c) r = 0 ∧ vReg (getCore s c) r = List.replicate 128 0) ∧
      (∀ a, 0x201 ≤ a → a ≤ 0x205 → ecrGet (getCore s c) a = 128) ∧ ecrGet (getCore s c) 0x3C3 = 15

/-- The canonical form of a memory (addresses rising, no byte listed that reads zero) is kept by the stores to the data memory, the fill port,
a packet's write, and a segment that powers up. The form is the model's (DESIGN CHOICE: assumption log, 5). -/
def Obligations.MemoriesKeepTheirForm : Prop :=
  ∀ (s t : State) (c : CoreId) (rs base : BitVec 4) (off : BitVec 18),
    let n := chOf c
    let k := startCore s c
    let ea := (gReg k base.toNat + off.signExtend 32).toNat
    detects s c = false → Mem.wf (getCore s c).dmem = true → Mem.wf (getCore s c).spad = true → Mem.wf (getCh s n).gddr = true →
    (canIssue s c = true → ea + 4 ≤ 65536 → ea % 4 = 0 → touchesHeld k 1 ea 4 = false →
      exec (.sw c rs base off) s = .next t ∨ exec (.sh c rs base off) s = .next t ∨ exec (.sb c rs base off) s = .next t →
      Mem.wf (getCore t c).dmem = true) ∧
    (∀ b lo bs, nextBeat (getCh s n) (getCore s c) = some b → b.kind = .recv → b.writes = [(lo, bs)] → exec (.fillBeat c) s = .next t →
      Mem.wf (getCore t c).spad = true) ∧
    (∀ p : Pkt, (getCh s n).st = .serving → bits p.arg.toNat 46 2 = 1 → routePort (getCh s n) p.sdev.toNat p.sch.toNat = some 8 →
      exec (.pktWrite (BitVec.ofNat 2 n) p) s = .next t → Mem.wf (getCh t n).gddr = true) ∧
    (∀ m g, (getCore s c).segs = [(m, g)] → exec (.segmentStateTimeout c) s = .next t → Mem.wf (getCore t c).spad = true)

/-- R347, Table 10.7, 0x101.6: the hub never holds more than 8,192 untransmitted event records, nor a channel more than 64 brake episodes: every step keeps
these limits. -/
def Obligations.StoresStayWithinTheirLimits : Prop :=
  ∀ s t : State, s.hub.events.length ≤ 8192 → (∀ n, (getCh s n).brakeLog.length ≤ 64) → step s = .next t →
    t.hub.events.length ≤ 8192 ∧ ∀ n, (getCh t n).brakeLog.length ≤ 64
end

