-- ==== Sys2Proof/Laws/Table.lean ====
section
/-! SUPPORT. Laws of tables: reading an entry after a write, a change or a removal. They hold of every list, sorted or not. -/

namespace Sys2Proof.Machine

variable {α β : Type}

@[simp] theorem tabFind_nil (k : Nat) : tabFind ([] : Tab α) k = none := rfl

theorem tabFind_cons (e : Nat × α) (t : Tab α) (k : Nat) :
    tabFind (e :: t) k = if k = e.1 then some e.2 else tabFind t k := by
  obtain ⟨a, b⟩ := e
  by_cases h : k = a
  · simp [tabFind, h]
  · have hb : (k == a) = false := by simp [h]
    simp [tabFind, List.lookup_cons, h, hb]

/-- A write is read at its key, every other key as before. -/
theorem tabFind_tabSet (t : Tab α) (k j : Nat) (v : α) :
    tabFind (tabSet t k v) j = if j = k then some v else tabFind t j := by
  induction t with
  | nil => simp [tabSet, tabFind_cons]
  | cons e r ih =>
    obtain ⟨a, b⟩ := e
    simp only [tabSet]
    split
    · simp [tabFind_cons]
    · split
      · subst_vars; simp only [tabFind_cons]; split <;> simp_all
      · simp only [tabFind_cons, ih]; split <;> split <;> simp_all

@[simp] theorem tabGet_tabSet (t : Tab α) (d v : α) (k j : Nat) :
    tabGet (tabSet t k v) d j = if j = k then v else tabGet t d j := by
  simp only [tabGet, tabFind_tabSet]; split <;> rfl

@[simp] theorem tabGet_tabUpd (t : Tab α) (d d' : α) (k j : Nat) (f : α → α) :
    tabGet (tabUpd t d k f) d' j = if j = k then f (tabGet t d k) else tabGet t d' j := by
  simp [tabUpd]

@[simp] theorem tabFind_tabUpd (t : Tab α) (d : α) (k j : Nat) (f : α → α) :
    tabFind (tabUpd t d k f) j = if j = k then some (f (tabGet t d k)) else tabFind t j := by
  simp [tabUpd, tabFind_tabSet]

theorem tabFind_tabMap (t : Tab α) (f : Nat → α → β) (k : Nat) :
    tabFind (tabMap t f) k = (tabFind t k).map (f k) := by
  induction t with
  | nil => rfl
  | cons e r ih =>
    have : tabMap (e :: r) f = (e.1, f e.1 e.2) :: tabMap r f := rfl
    rw [this, tabFind_cons, tabFind_cons, ih]
    split <;> simp_all

theorem tabFind_tabDel (t : Tab α) (k j : Nat) :
    tabFind (tabDel t k) j = if j = k then none else tabFind t j := by
  induction t with
  | nil => simp [tabDel]
  | cons e r ih =>
    have : tabDel (e :: r) k = if e.1 != k then e :: tabDel r k else tabDel r k := by
      simp only [tabDel, List.filter_cons]
    rw [this]
    by_cases h : e.1 = k
    · subst h; simp only [bne_self_eq_false, Bool.false_eq_true, if_false, ih, tabFind_cons]; split <;> simp_all
    · simp only [bne_iff_ne, ne_eq, h, not_false_eq_true, if_true, tabFind_cons, ih]; split <;> split <;> simp_all

end Sys2Proof.Machine
end

