-- ==== Sys2Proof/Laws/State.lean ====
section
/-! SUPPORT. Laws of the state: what each update of a channel, a core or the hub leaves to be read, and the frames that follow. -/

namespace Sys2Proof.Machine

/-! ### Channels -/

@[simp] theorem getCh_updCh (s : State) (n m : Nat) (f : Channel → Channel) :
    getCh (updCh s n f) m = if m = n then f (getCh s n) else getCh s m := by
  simp [getCh, updCh]

@[simp] theorem updCh_pending (s : State) (n : Nat) (f : Channel → Channel) : (updCh s n f).pending = s.pending := rfl
@[simp] theorem updCh_dict (s : State) (n : Nat) (f : Channel → Channel) : (updCh s n f).dict = s.dict := rfl
@[simp] theorem updCh_hub (s : State) (n : Nat) (f : Channel → Channel) : (updCh s n f).hub = s.hub := rfl
@[simp] theorem updCh_free (s : State) (n : Nat) (f : Channel → Channel) : (updCh s n f).free = s.free := rfl
@[simp] theorem updCh_rowStart (s : State) (n : Nat) (f : Channel → Channel) : (updCh s n f).rowStart = s.rowStart := rfl

@[simp] theorem updHub_pending (s : State) (f : Hub → Hub) : (updHub s f).pending = s.pending := rfl
@[simp] theorem updHub_dict (s : State) (f : Hub → Hub) : (updHub s f).dict = s.dict := rfl
@[simp] theorem updHub_ch (s : State) (f : Hub → Hub) : (updHub s f).ch = s.ch := rfl
@[simp] theorem updHub_hub (s : State) (f : Hub → Hub) : (updHub s f).hub = f s.hub := rfl
@[simp] theorem updHub_free (s : State) (f : Hub → Hub) : (updHub s f).free = s.free := rfl
@[simp] theorem updHub_rowStart (s : State) (f : Hub → Hub) : (updHub s f).rowStart = s.rowStart := rfl
@[simp] theorem getCh_updHub (s : State) (f : Hub → Hub) (n : Nat) : getCh (updHub s f) n = getCh s n := rfl
@[simp] theorem getCore_updHub (s : State) (f : Hub → Hub) (c : CoreId) : getCore (updHub s f) c = getCore s c := rfl

/-! ### Cores -/

@[simp] theorem coreOf_updCoreOf (k : Channel) (n m : Nat) (f : Core → Core) :
    coreOf (updCoreOf k n f) m = if m = n then f (coreOf k n) else coreOf k m := by
  simp [coreOf, updCoreOf]

@[simp] theorem getCh_updCore (s : State) (c : CoreId) (n : Nat) (f : Core → Core) :
    getCh (updCore s c f) n = if n = chOf c then updCoreOf (getCh s (chOf c)) (inCh c) f else getCh s n := by
  simp [updCore]

@[simp] theorem getCore_updCore_self (s : State) (c : CoreId) (f : Core → Core) :
    getCore (updCore s c f) c = f (getCore s c) := by
  simp [getCore]

/-- A core's place is its own: two cores of one channel and number are one. -/
theorem coreId_ext {c d : CoreId} (h : chOf c = chOf d) (h' : inCh c = inCh d) : c = d := by
  apply BitVec.eq_of_toNat_eq
  simp only [chOf, inCh] at h h'
  omega

theorem getCore_updCore_ne {s : State} {c d : CoreId} (f : Core → Core) (h : d ≠ c) :
    getCore (updCore s c f) d = getCore s d := by
  simp only [getCore, getCh_updCore]
  split
  · rename_i hc
    rw [coreOf_updCoreOf, if_neg, hc]
    exact fun hn => h (coreId_ext hc hn)
  · rfl

@[simp] theorem updCore_pending (s : State) (c : CoreId) (f : Core → Core) : (updCore s c f).pending = s.pending := rfl
@[simp] theorem updCore_dict (s : State) (c : CoreId) (f : Core → Core) : (updCore s c f).dict = s.dict := rfl
@[simp] theorem updCore_hub (s : State) (c : CoreId) (f : Core → Core) : (updCore s c f).hub = s.hub := rfl
@[simp] theorem updCore_free (s : State) (c : CoreId) (f : Core → Core) : (updCore s c f).free = s.free := rfl
@[simp] theorem updCore_rowStart (s : State) (c : CoreId) (f : Core → Core) : (updCore s c f).rowStart = s.rowStart := rfl

/-- A core's update touches that core alone. -/
theorem onlyCore_updCore (s : State) (c : CoreId) (f : Core → Core) : OnlyCore s (updCore s c f) c := by
  refine ⟨⟨⟨rfl, fun m hm => by simp [hm]⟩, by simp [updCoreOf]⟩, fun n hn => by simp [hn]⟩

theorem coreBecomes_updCore (s : State) (c : CoreId) (f : Core → Core) : CoreBecomes s (updCore s c f) c (f (getCore s c)) :=
  ⟨getCore_updCore_self s c f, onlyCore_updCore s c f⟩

theorem onlyChannel_updCh (s : State) (n : Nat) (f : Channel → Channel) : OnlyChannel s (updCh s n f) n :=
  ⟨rfl, fun m hm => by simp [hm]⟩

/-! ### Registers -/

@[simp] theorem gReg_setG (k : Core) (r x : Nat) (v : Word) :
    gReg (setG r v k) x = if x = r then v else gReg k x := by
  simp [gReg, setG]

@[simp] theorem setG_g (k : Core) (r : Nat) (v : Word) : { setG r v k with g := k.g } = k := rfl

@[simp] theorem vReg_setV (k : Core) (r x : Nat) (v : List Word) :
    vReg (setV r v k) x = if x = r then v else vReg k x := by
  simp [vReg, setV]

@[simp] theorem setV_v (k : Core) (r : Nat) (v : List Word) : { setV r v k with v := k.v } = k := rfl

@[simp] theorem ecrGet_ecrSet (k : Core) (a x : Nat) (v : Word) :
    ecrGet (ecrSet a v k) x = if x = a then v else ecrGet k x := by
  simp [ecrGet, ecrSet]

@[simp] theorem ecrSet_ecr (k : Core) (a : Nat) (v : Word) : { ecrSet a v k with ecr := k.ecr } = k := rfl

theorem writesReg_updCore (s : State) (c : CoreId) (r : BitVec 4) (v : Word) :
    WritesReg s (updCore s c (setG r.toNat v)) c r v :=
  ⟨fun x => by simp, by simp, onlyCore_updCore s c _⟩

/-! ### The tables of a core, a channel and the hub: each entry has one reader and one update -/

@[simp] theorem ringOf_updRing (k : Core) (r x : Nat) (f : Ring → Ring) :
    ringOf (updRing r f k) x = if x = r then f (ringOf k r) else ringOf k x := by
  simp [ringOf, updRing]

@[simp] theorem updRing_rings (k : Core) (r : Nat) (f : Ring → Ring) : { updRing r f k with rings := k.rings } = k := rfl

@[simp] theorem groupOf_updGroup (k : Core) (j x : Nat) (f : Group → Group) :
    groupOf (updGroup j f k) x = if x = j then f (groupOf k j) else groupOf k x := by
  simp [groupOf, updGroup]

@[simp] theorem updGroup_groups (k : Core) (j : Nat) (f : Group → Group) : { updGroup j f k with groups := k.groups } = k := rfl

@[simp] theorem queueOf_updQueue (k : Core) (q x : Nat) (f : Queue → Queue) :
    queueOf (updQueue q f k) x = if x = q then f (queueOf k q) else queueOf k x := by
  simp [queueOf, updQueue]

@[simp] theorem updQueue_queues (k : Core) (q : Nat) (f : Queue → Queue) : { updQueue q f k with queues := k.queues } = k := rfl

@[simp] theorem connOf_updConn (k : Core) (n x : Nat) (f : Conn → Conn) :
    connOf (updConn n f k) x = if x = n then (connOf k n).map f else connOf k x := by
  simp only [connOf, updConn, tabFind_tabMap]
  split <;> simp_all

@[simp] theorem updConn_conns (k : Core) (n : Nat) (f : Conn → Conn) : { updConn n f k with conns := k.conns } = k := rfl

@[simp] theorem objOf_updObj (s : State) (ch n x : Nat) (f : SyncObj → SyncObj) :
    objOf (getCh (updObj s ch n f) ch) x = if x = n then f (objOf (getCh s ch) n) else objOf (getCh s ch) x := by
  simp [objOf, updObj]

@[simp] theorem jobOf_updJobCh (s : State) (ch j x : Nat) (f : JobCh → JobCh) :
    jobOf (getCh (updJobCh s ch j f) ch) x = if x = j then f (jobOf (getCh s ch) j) else jobOf (getCh s ch) x := by
  simp [jobOf, updJobCh]

@[simp] theorem updJobCh_hub (s : State) (ch j : Nat) (f : JobCh → JobCh) : (updJobCh s ch j f).hub = s.hub := rfl
@[simp] theorem updJobCh_dict (s : State) (ch j : Nat) (f : JobCh → JobCh) : (updJobCh s ch j f).dict = s.dict := rfl

@[simp] theorem getPort_updPort (s : State) (ch p x : Nat) (f : LinkPort → LinkPort) :
    getPort (getCh (updPort s ch p f) ch) x = if x = p then f (getPort (getCh s ch) p) else getPort (getCh s ch) x := by
  simp [getPort, updPort]

@[simp] theorem updPort_hub (s : State) (ch p : Nat) (f : LinkPort → LinkPort) : (updPort s ch p f).hub = s.hub := rfl
@[simp] theorem updPort_dict (s : State) (ch p : Nat) (f : LinkPort → LinkPort) : (updPort s ch p f).dict = s.dict := rfl

@[simp] theorem getJob_updJob (s : State) (j x : Nat) (f : Job → Job) :
    getJob (updJob s j f) x = if x = j then f (getJob s j) else getJob s x := by
  simp [getJob, updJob]

@[simp] theorem updJob_ch (s : State) (j : Nat) (f : Job → Job) : (updJob s j f).ch = s.ch := rfl
@[simp] theorem updJob_dict (s : State) (j : Nat) (f : Job → Job) : (updJob s j f).dict = s.dict := rfl

@[simp] theorem getBay_updBay (s : State) (b x : Nat) (f : Bay → Bay) :
    getBay (updBay s b f) x = if x = b then f (getBay s b) else getBay s x := by
  simp [getBay, updBay]

@[simp] theorem updBay_ch (s : State) (b : Nat) (f : Bay → Bay) : (updBay s b f).ch = s.ch := rfl
@[simp] theorem updBay_jnl (s : State) (b : Nat) (f : Bay → Bay) : (updBay s b f).hub.jnl = s.hub.jnl := rfl
@[simp] theorem updBay_dict (s : State) (b : Nat) (f : Bay → Bay) : (updBay s b f).dict = s.dict := rfl

@[simp] theorem updJnl_jnl (s : State) (f : Journal → Journal) : (updJnl s f).hub.jnl = f s.hub.jnl := rfl
@[simp] theorem updJnl_ch (s : State) (f : Journal → Journal) : (updJnl s f).ch = s.ch := rfl
@[simp] theorem getBay_updJnl (s : State) (f : Journal → Journal) (b : Nat) : getBay (updJnl s f) b = getBay s b := rfl

@[simp] theorem getAhn_updAhn (s : State) (l x : Nat) (f : Ahn → Ahn) :
    getAhn (updAhn s l f) x = if x = l then f (getAhn s l) else getAhn s x := by
  simp [getAhn, updAhn]

@[simp] theorem updAhn_ch (s : State) (l : Nat) (f : Ahn → Ahn) : (updAhn s l f).ch = s.ch := rfl

@[simp] theorem getCh_drawFree (s : State) (n : Nat) : getCh (drawFree s).2 n = getCh s n := rfl
@[simp] theorem drawFree_hub (s : State) : (drawFree s).2.hub = s.hub := rfl

/-! ### Stored objects of the dictionary -/

@[simp] theorem dGet_dSet (s : State) (i b j d v : Nat) :
    dGet (dSet s i b v) j d = if dk j d = dk i b then v else dGet s j d := by
  simp [dGet, dSet]

@[simp] theorem dSet_ch (s : State) (i b v : Nat) : (dSet s i b v).ch = s.ch := rfl
@[simp] theorem dSet_hub (s : State) (i b v : Nat) : (dSet s i b v).hub = s.hub := rfl
@[simp] theorem dSet_pending (s : State) (i b v : Nat) : (dSet s i b v).pending = s.pending := rfl
@[simp] theorem dSet_free (s : State) (i b v : Nat) : (dSet s i b v).free = s.free := rfl
@[simp] theorem dSet_rowStart (s : State) (i b v : Nat) : (dSet s i b v).rowStart = s.rowStart := rfl
@[simp] theorem getCh_dSet (s : State) (i b v n : Nat) : getCh (dSet s i b v) n = getCh s n := rfl
@[simp] theorem getCore_dSet (s : State) (i b v : Nat) (c : CoreId) : getCore (dSet s i b v) c = getCore s c := rfl

end Sys2Proof.Machine
end

