-- ==== Sys2Proof/Laws/Issue.lean ====
section
/-! SUPPORT. Laws of issue: everything a slot command can do, and the three shapes of the coachman. -/

namespace Sys2Proof.Machine

/-- A slot command does nothing, halts its core, or has its effect (R26, R50). -/
theorem issue_cases (s : State) (c : CoreId) (slot : Nat) (fault : Option Nat) (eff : State → State) :
    (canIssue s c = false ∧ issue s c slot fault eff = s) ∨
    (canIssue s c = true ∧ ∃ r, fault = some r ∧ issue s c slot fault eff = haltNow s c slot r) ∨
    (canIssue s c = true ∧ fault = none ∧ issue s c slot fault eff = eff s) := by
  unfold issue
  cases h : canIssue s c <;> cases fault <;> simp

theorem issue_none {s : State} {c : CoreId} {fault : Option Nat} (h : canIssue s c = true) (hf : fault = none)
    (slot : Nat) (eff : State → State) : issue s c slot fault eff = eff s := by
  simp [issue, h, hf]

theorem issue_some {s : State} {c : CoreId} {fault : Option Nat} {r : Nat} (h : canIssue s c = true) (hf : fault = some r)
    (slot : Nat) (eff : State → State) : issue s c slot fault eff = haltNow s c slot r := by
  simp [issue, h, hf]

theorem issue_blocked {s : State} {c : CoreId} (h : canIssue s c = false) (slot : Nat) (fault : Option Nat)
    (eff : State → State) : issue s c slot fault eff = s := by
  simp [issue, h]

/-- What an instruction of the coachman that writes a register does. -/
theorem coach_writes {s : State} {c : CoreId} {fault : Option Nat} (h : canIssue s c = true) (hf : fault = none)
    (rd : BitVec 4) (v : Core → Word) :
    ∃ t, coach s c fault rd v = .next t ∧ WritesReg s t c rd (v (startCore s c)) :=
  ⟨_, rfl, by rw [issue_none h hf]; exact writesReg_updCore s c rd _⟩

end Sys2Proof.Machine
end

