-- ==== Sys2Proof/Laws/Memory.lean ====
section
/-! SUPPORT. Laws of memories: reading a byte after a write or a clearing, every operation keeps the canonical form, and a
range read is its bytes. -/

namespace Sys2Proof.Machine

theorem memGet_nil (a : Nat) : memGet [] a = 0 := rfl

theorem memGet_cons (c : Host.Cell) (m : Mem) (a : Nat) : memGet (c :: m) a = if a = c.1 then c.2 else memGet m a := by
  obtain ⟨x, b⟩ := c
  by_cases h : a = x
  · simp [memGet, h]
  · have hb : (a == x) = false := by simp [h]
    simp [memGet, List.lookup_cons, h, hb]

theorem memGet_append (m n : Mem) (a : Nat) :
    memGet (m ++ n) a = if (m.any fun c => c.1 == a) then memGet m a else memGet n a := by
  induction m with
  | nil => simp
  | cons c r ih =>
    rw [List.cons_append, memGet_cons, memGet_cons, ih]
    by_cases h : a = c.1
    · simp [h]
    · have : (c.1 == a) = false := by simp; omega
      simp [h, this]

theorem memGet_filter (m : Mem) (p : Nat → Bool) (a : Nat) :
    memGet (m.filter fun c => p c.1) a = if p a then memGet m a else 0 := by
  induction m with
  | nil => simp [memGet_nil]
  | cons c r ih =>
    by_cases hp : p c.1
    · simp only [List.filter_cons, hp, if_true, memGet_cons, ih]
      by_cases h : a = c.1 <;> simp [h, hp]
    · simp only [List.filter_cons, hp, memGet_cons]
      by_cases h : a = c.1
      · subst h; simp [hp] at ih ⊢; simpa [hp] using ih
      · simp [h, ih]

theorem memGet_none {m : Mem} {a : Nat} (h : ∀ c ∈ m, c.1 ≠ a) : memGet m a = 0 := by
  induction m with
  | nil => rfl
  | cons c r ih =>
    rw [memGet_cons, if_neg (fun e => h c (by simp) e.symm), ih fun d hd => h d (by simp [hd])]

theorem memCells_bounds (a : Nat) (bs : List Byte) : ∀ c ∈ memCells a bs, a ≤ c.1 ∧ c.1 < a + bs.length ∧ c.2 ≠ 0 := by
  induction bs generalizing a with
  | nil => simp [memCells]
  | cons b r ih =>
    intro c hc
    unfold memCells at hc
    split at hc
    · have := ih _ c hc; simp only [List.length_cons]; exact ⟨by omega, by omega, this.2.2⟩
    · rcases List.mem_cons.1 hc with rfl | hc
      · simp only [List.length_cons]; exact ⟨by omega, by omega, ‹_›⟩
      · have := ih _ c hc; simp only [List.length_cons]; exact ⟨by omega, by omega, this.2.2⟩

theorem memGet_memCells (a x : Nat) (bs : List Byte) (h : a ≤ x) : memGet (memCells a bs) x = bs.getD (x - a) 0 := by
  induction bs generalizing a with
  | nil => simp [memCells, memGet_nil]
  | cons b r ih =>
    unfold memCells
    by_cases hx : x = a
    · subst hx
      split
      · rename_i hb
        rw [memGet_none]
        · simp [hb]
        · intro c hc he; have := memCells_bounds _ _ c hc; omega
      · simp [memGet_cons]
    · have hs : x - a = (x - (a + 1)) + 1 := by omega
      split
      · rw [ih _ (by omega), hs, List.getD_cons_succ]
      · rw [memGet_cons, if_neg (by simpa using hx), ih _ (by omega), hs, List.getD_cons_succ]

/-- A byte after a write: the byte written, or as before. -/
theorem memGet_memWrite (m : Mem) (a : Nat) (bs : List Byte) (x : Nat) :
    memGet (memWrite m a bs) x = if a ≤ x ∧ x < a + bs.length then bs.getD (x - a) 0 else memGet m x := by
  unfold memWrite
  rw [List.append_assoc, memGet_append, memGet_append]
  have hlt := memGet_filter m (fun n => decide (n < a)) x
  have hge := memGet_filter m (fun n => decide (a + bs.length ≤ n)) x
  by_cases h1 : x < a
  · have hc : (memCells a bs).any (fun c => c.1 == x) = false := by
      simp only [List.any_eq_false, beq_iff_eq]
      intro c hc; have := memCells_bounds _ _ c hc; omega
    rw [if_neg (by omega : ¬(a ≤ x ∧ x < a + bs.length))]
    split
    · rw [hlt]; simp [h1]
    · rename_i hn
      simp only [hc, Bool.false_eq_true, if_false, hge]
      rw [if_neg (by simp; omega)]
      symm
      apply memGet_none
      intro c hm he
      apply hn
      simp only [List.any_eq_true, beq_iff_eq]
      exact ⟨c, by simp [List.mem_filter, hm]; omega, he⟩
  · have hn : ((m.filter fun c => decide (c.1 < a)).any fun c => c.1 == x) = false := by
      simp only [List.any_eq_false, beq_iff_eq, List.mem_filter, decide_eq_true_eq]
      intro c hc; omega
    rw [hn]
    simp only [Bool.false_eq_true, if_false]
    by_cases h2 : x < a + bs.length
    · rw [if_pos (by omega : a ≤ x ∧ x < a + bs.length)]
      split
      · rw [memGet_memCells _ _ _ (by omega)]
      · rename_i hn2
        rw [hge, if_neg (by simp; omega), ← memGet_memCells _ _ _ (by omega : a ≤ x)]
        symm; apply memGet_none
        intro c hm he; apply hn2
        simp only [List.any_eq_true, beq_iff_eq]; exact ⟨c, hm, he⟩
    · have hc : (memCells a bs).any (fun c => c.1 == x) = false := by
        simp only [List.any_eq_false, beq_iff_eq]
        intro c hc; have := memCells_bounds _ _ c hc; omega
      rw [hc, if_neg (by omega : ¬(a ≤ x ∧ x < a + bs.length))]
      simp only [Bool.false_eq_true, if_false, hge]
      rw [if_pos (by simp; omega)]

/-- A byte after a clearing. -/
theorem memGet_memZero (m : Mem) (a n x : Nat) :
    memGet (memZero m a n) x = if a ≤ x ∧ x < a + n then 0 else memGet m x := by
  unfold memZero
  rw [memGet_filter m (fun y => decide (y < a ∨ a + n ≤ y))]
  by_cases h : a ≤ x ∧ x < a + n
  · rw [if_neg (by simp; omega), if_pos h]
  · rw [if_pos (by simp; omega), if_neg h]

/-! ### The canonical form -/

theorem Mem.wf_iff (m : Mem) : m.wf = true ↔ m.Pairwise (fun a b => a.1 < b.1) ∧ ∀ c ∈ m, c.2 ≠ 0 := by
  simp [Mem.wf]

theorem Mem.wf_nil : Mem.wf [] = true := by decide

theorem Mem.wf_filter {m : Mem} (p : Host.Cell → Bool) (h : m.wf = true) : Mem.wf (m.filter p) = true := by
  rw [Mem.wf_iff] at *
  exact ⟨h.1.filter p, fun c hc => h.2 c (List.mem_filter.1 hc).1⟩

theorem memCells_pairwise (a : Nat) (bs : List Byte) : (memCells a bs).Pairwise (fun x y => x.1 < y.1) := by
  induction bs generalizing a with
  | nil => simp [memCells]
  | cons b r ih =>
    unfold memCells
    split
    · exact ih _
    · refine List.pairwise_cons.2 ⟨fun c hc => ?_, ih _⟩
      have := memCells_bounds _ _ c hc; omega

/-- A write keeps the canonical form. -/
theorem Mem.wf_memWrite {m : Mem} (a : Nat) (bs : List Byte) (h : m.wf = true) : Mem.wf (memWrite m a bs) = true := by
  rw [Mem.wf_iff] at *
  unfold memWrite
  refine ⟨?_, ?_⟩
  · rw [List.append_assoc, List.pairwise_append, List.pairwise_append]
    refine ⟨h.1.filter _, ⟨memCells_pairwise a bs, h.1.filter _, ?_⟩, ?_⟩
    · intro x hx y hy
      have := memCells_bounds _ _ x hx
      simp only [List.mem_filter, decide_eq_true_eq] at hy; omega
    · intro x hx y hy
      simp only [List.mem_filter, decide_eq_true_eq] at hx
      rcases List.mem_append.1 hy with hy | hy
      · have := memCells_bounds _ _ y hy; omega
      · simp only [List.mem_filter, decide_eq_true_eq] at hy; omega
  · intro c hc
    simp only [List.mem_append, List.mem_filter] at hc
    rcases hc with (hc | hc) | hc
    · exact h.2 c hc.1
    · exact (memCells_bounds _ _ c hc).2.2
    · exact h.2 c hc.1

/-- A clearing keeps the canonical form. -/
theorem Mem.wf_memZero {m : Mem} (a n : Nat) (h : m.wf = true) : Mem.wf (memZero m a n) = true :=
  Mem.wf_filter _ h

/-- What a range read of cells in order answers. -/
theorem memTake_eq (n a : Nat) (m : Mem) (hp : m.Pairwise (fun x y => x.1 < y.1)) (hb : ∀ c ∈ m, a ≤ c.1) :
    memTake m n a = (List.range n).map fun i => memGet m (a + i) := by
  induction n generalizing a m with
  | zero => simp [memTake]
  | succ n ih =>
    rw [List.range_succ_eq_map, List.map_cons, List.map_map]
    cases m with
    | nil =>
      simp only [memTake, memGet_nil, List.replicate_succ]
      congr 1
      apply List.ext_getElem <;> simp
    | cons c r =>
      have hr := List.pairwise_cons.1 hp
      simp only [memTake]
      split
      · rename_i hc
        rw [ih (a + 1) r hr.2 fun d hd => by have := hr.1 d hd; omega]
        simp only [memGet_cons, hc]
        refine congrArg₂ List.cons (by simp) (List.map_congr_left fun i _ => ?_)
        simp only [Function.comp, Nat.succ_eq_add_one]
        rw [if_neg (by omega)]; congr 1; omega
      · rename_i hc
        rw [ih (a + 1) (c :: r) hp fun d hd => by
          have h1 := hb c (by simp)
          rcases List.mem_cons.1 hd with rfl | hd
          · omega
          · have := hr.1 d hd; omega]
        refine congrArg₂ List.cons ?_ (List.map_congr_left fun i _ => ?_)
        · symm; apply memGet_none
          intro d hd
          have h1 := hb c (by simp)
          rcases List.mem_cons.1 hd with rfl | hd
          · omega
          · have := hr.1 d hd; omega
        · simp only [Function.comp, Nat.succ_eq_add_one]; congr 1; omega

/-- A range read is its bytes, of a memory in canonical form. -/
theorem memRead_eq {m : Mem} (h : m.wf = true) (a n : Nat) :
    memRead m a n = (List.range n).map fun i => memGet m (a + i) := by
  rw [Mem.wf_iff] at h
  unfold memRead
  rw [memTake_eq n a _ (h.1.filter _) (by simp only [List.mem_filter, decide_eq_true_eq]; intro c hc; exact hc.2.1)]
  refine List.map_congr_left fun i hi => ?_
  rw [memGet_filter m (fun y => decide (a ≤ y ∧ y < a + n)), if_pos]
  have := List.mem_range.1 hi
  simp; omega

theorem length_leBytes (n v : Nat) : (leBytes n v).length = n := by
  induction n generalizing v with
  | zero => rfl
  | succ n ih => simp [leBytes, ih]

theorem getD_leBytes (n v i : Nat) (h : i < n) : (leBytes n v).getD i 0 = BitVec.ofNat 8 (v / 256 ^ i) := by
  induction n generalizing v i with
  | zero => omega
  | succ n ih =>
    cases i with
    | zero => simp [leBytes]
    | succ i => rw [leBytes, List.getD_cons_succ, ih _ _ (by omega), Nat.div_div_eq_div_mul]; congr 2; ring

end Sys2Proof.Machine
end

