-- ==== Sys2Proof/Tests/Slice0.lean ====
section
/-! SUPPORT. Tests: the model's own checks. A well-formedness smoke with an ill-formed term for each check; the words of the slots; for each
obligation with premises, a state and operands that meet them, clause by clause and at the ends of their ranges; and single steps whose results
come from the tables of the spec. -/

set_option maxRecDepth 20000
set_option Elab.async false

open Sys2Proof Sys2Proof.Machine

namespace Sys2Proof.Tests

/-! ### Well-formedness -/

theorem test_wf_refuses_an_accumulator_kind_of_load : (Instr.load 5 false 4 0 0 0 .clean).wf = false := by decide +kernel
theorem test_wf_refuses_a_plain_reduction_of_kind_5 : (Instr.vred 5 (BitVec.ofNat 42 (5 * 2 ^ 27))).wf = false := by decide +kernel
theorem test_wf_refuses_a_prefix_reduction_of_kind_0 : (Instr.vredPrefix 5 0).wf = false := by decide +kernel
theorem test_wf_refuses_a_short_flit : (Instr.flitReceipt 0 1 (zeros 255)).wf = false := by decide +kernel
theorem test_wf_refuses_packets_of_a_wrong_size :
    let p : Nat → Pkt := fun n => ⟨3, 0, 3, 0, 0, 0, zeros n⟩
    (Instr.rdreq 0 .clean (p 7)).wf = false ∧ (Instr.rddata 0 (p 0)).wf = false ∧ (Instr.rddata 0 (p 4097)).wf = false ∧
      (Instr.pktWrite 0 (p 0)).wf = false ∧ (Instr.wrdone 0 (p 1)).wf = false ∧ (Instr.fault 0 (p 1)).wf = false ∧
      (Instr.reach 0 1 (p 1)).wf = false := by decide +kernel
theorem test_wf_refuses_more_than_a_frame :
    let b := zeros 9181
    let q : Req := ⟨.ahnec, 0⟩
    (Instr.lnkRouteData q 0 b).wf = false ∧ (Instr.manifest 0 0 b).wf = false ∧ (Instr.sectionBytes 0 0 0 b).wf = false ∧
      (Instr.chunk 0 0 0 0 b).wf = false ∧ (Instr.dataWrite 0 0 0 b 0).wf = false ∧ (Instr.msgIn 5 0 0 b 0).wf = false ∧
      (Instr.dictWrite q 0 0 b).wf = false ∧ (Instr.famRegionWrite q 0 0 b).wf = false ∧ (Instr.famWinData q 0 b).wf = false ∧
      (Instr.jobPlace q 0 b).wf = false := by decide +kernel
theorem test_wf_refuses_a_frame_of_no_size : (Instr.ahnFrameReceipt 0 (zeros 33)).wf = false ∧
    (Instr.ahnFrameReceipt 0 (zeros 9248)).wf = false ∧ (Instr.ahnFrameReceipt 0 (zeros 64)).wf = true := by decide +kernel
theorem test_wf_refuses_readings_of_three_channels :
    (Instr.throttleEvaluation ⟨0, 0, 0, 0, 0, [0, 0, 0], [0, 0, 0, 0], [0, 0, 0, 0], 0, 0, 0⟩).wf = false := by decide +kernel
theorem test_wf_refuses_a_short_nonce_and_key : (Instr.quoteReq ⟨.ahnec, 0⟩ (zeros 31) 0).wf = false ∧
    (Instr.secOwnerKey ⟨.mgmt, 0⟩ 0 (zeros 63) []).wf = false ∧ (Instr.secOwnerKey ⟨.mgmt, 0⟩ 0 (zeros 64) (zeros 63)).wf = false := by
  decide +kernel

/-! ### Words of the slots, written out from Tables 2.2, 2.4, 2.8, 2.9, 2.11, 4.3, 5.2 -/

theorem test_word_setc : decodeSlot 5 0 0b0010_11_00_111111111111111111111111 = .ok (some (.setc 5 3 0 0xFFFFFF)) := by decide +kernel
theorem test_word_hlt : decodeSlot 5 0 0b0110_0011_1_000000000000000_10010000 = .ok (some (.hlt 5 3 true 0 0x90)) := by decide +kernel
theorem test_word_reserved_op : decodeSlot 5 0 0b0111_0000000000000000000000000000 = .error 0x01 := by decide +kernel
theorem test_word_sltiu : decodeSlot 5 1 0b100001_0011_0001_111111111111111100 = .ok (some (.sltiu 5 3 1 0x3FFFC)) := by decide +kernel
theorem test_word_add : decodeSlot 5 1 0b000001_0011_0001_0010_00000000000000 = .ok (some (.add 5 3 1 2 0)) := by decide +kernel
theorem test_word_load : decodeSlot 5 2 0b0010_011_01111_0101_1111111110000000 = .ok (some (.load 5 true 3 15 5 0xFF80 .clean)) := by decide +kernel
theorem test_word_acc_preload : decodeSlot 5 2 0b0001_100_00111_0000_0000000000010000 = .ok (some (.accPreload 5 false 7 0 16 .clean)) := by
  decide +kernel
theorem test_word_mchk : decodeSlot 5 3 0b00111_10001_0010_0000000000000000000000000000000000 =
    .ok (some (.mchk 5 0b10001_0010_0000000000000000000000000000000000)) := by decide +kernel
theorem test_word_vsra : decodeSlot 5 4 0b010001_10_00011_00001_00010_00_0000000_0000_00_0_0_0_0_000000 =
    .ok (some (.vsra 5 0b10_00011_00001_00010_00_0000000_0000_00_0_0_0_0_000000)) := by decide +kernel
theorem test_word_vfn_tanh : decodeSlot 5 4 0b010011_00_00011_00001_00000_00_0000000_0000_00_0_0_0_0_00_0100 =
    .ok (some (.vfnTanh 5 0b00_00011_00001_00000_00_0000000_0000_00_0_0_0_0_00)) := by decide +kernel
theorem test_word_vred_prefix : decodeSlot 5 4 0b011100_10_00011_00001_101_111_000000000000000000000000 =
    .ok (some (.vredPrefix 5 0b10_00011_00001_101_111_000000000000000000000000)) := by decide +kernel
theorem test_word_uadp : decodeSlot 5 4 0b100100_00001_00010_00011_00100_00101_00000_00_0_0_0000_0_000 =
    .ok (some (.uadp 5 0b00001_00010_00011_00100_00101_00000_00_0_0_0000_0_000)) := by decide +kernel
theorem test_word_sput : decodeSlot 5 5 0b0010_11111_0110_1_000000000000000011 = .ok (some (.sput 5 31 6 true 3)) := by decide +kernel
theorem test_word_recv : decodeSlot 5 6 0b0010_0101_0_00111_00_0000000000000000 = .ok (some (.recv 5 5 false 7 0 0)) := by decide +kernel
theorem test_word_sel : decodeSlot 5 6 0b0011_1000000000000001_1_0_00111_0010_0 = .ok (some (.xSel 5 0x8001 true false 7 2 0)) := by decide +kernel
theorem test_word_wait : decodeSlot 5 6 0b0100_111111111111_0010_1_00000000000 = .ok (some (.wait 5 0xFFF 2 true 0)) := by decide +kernel
/-! ### Small states that the premises are met in -/

/-- A running core: some general registers, data memory, loops, segments on. -/
def coreA : Core := { Core.reset with
  status := .running, job := 0, bound := 64, pc := 10, sched := 100
  g := [(1, 0x80000001), (2, 7), (4, 0xFFFFFFF0), (5, 65532), (6, 65533), (7, 0x1000000), (8, 65536)]
  dmem := [(1, 0x81#8), (4, 1#8), (5, 0x82#8), (65535, 0xFF#8)]
  loops := [(0, ⟨3, 3, 1, 8, 12, false⟩), (1, ⟨5, 0, 0, 0, 0, false⟩)]
  hiStep := 11, hiFt := 12, hiSched := 13, step := 2 ^ 33 + 5
  segs := [(0, ⟨.on, 0, false⟩)] }
/-- Channel 0 serving, core 5 as given. -/
def stC (k : Core) : State :=
  { State.reset with ch := [(0, { Channel.reset with st := .serving, sched := 100, cycles := 120, ft := 2 ^ 34 + 3, cores := [(5, k)] })] }
/-- The origin of what is on its way. -/
def o0 : Origin := ⟨3, 50, 3, 7, 1⟩
/-- A core with engine registers, groups and held ranges. -/
def coreM : Core := { coreA with
  g := [(1, 128), (2, 16), (3, 70000)]
  v := [(0, (List.range 128).map fun i => BitVec.ofNat 32 (0x3F800000 + 0x10001 * i)), (1, (List.range 128).map fun i => BitVec.ofNat 32 (0xC1200000 + 77 * i)),
        (2, (List.range 128).map fun i => BitVec.ofNat 32 (i * i * 77 + 3))]
  spad := [(512 * 3 + 1, 7#8), (4096 * 3 + 5, 0x80#8), (20, 1#8)]
  stepMap := [⟨none, 0, 0, 1⟩]
  held := [⟨1, 1, 2, 100, 4⟩, ⟨1, 0, 2, 1600, 16⟩]
  bcast := List.replicate 32 0x3A#8
  laneOp := List.replicate 4096 0x12#8
  laneSt := [(3, List.replicate 4096 0x21#8)]
  groups := [(1, ⟨true, [], [], List.replicate 128 ⟨⟨77, 0, false, false, false, false⟩, -10⟩, List.replicate 128 0, 0⟩)]
  chkSt := [(2, [1, 2])] }
/-- An M instruction on its way. -/
def mit (op : MOp) (ch : Option CheckInfo) : MItem := ⟨100, op, ch, o0⟩
/-- A check with its two sums. -/
def ci0 (c l : Nat) : CheckInfo := ⟨true, c, l, [1, 2], [3], [], 0⟩
/-- Words of each class of FP32 value. -/
def specials : List Nat := [0, 0x80000000, 0x3F800000, 0xBF800000, 0x7F800000, 0xFF800000, 0x7FC00000, 0x00000001, 0x80000001, 0x007FFFFF, 0x00800000, 0x7F7FFFFF, 0xFF7FFFFF,
  0x40490FDB, 0xC0490FDB, 0x33800000, 0x3F7FFFFF, 0x42B17218, 0xC2B17218, 0x4F000000, 0xCF000000, 0x12345678, 0x87654321, 0x7F807F80, 0xFFC0FF80, 0x3F803F81, 0x40004080, 31, 32, 33, 0xFFFFFFFF, 0x7FFFFFFF]
/-- A core with vectors of every class. -/
def coreV : Core := { coreA with
  g := [(1, 0x3F800000), (2, 16), (3, 0xFFFFFFFE)]
  v := [(0, (List.range 128).map fun i => BitVec.ofNat 32 (specials.getD (i % 32) 0)), (1, (List.range 128).map fun i => BitVec.ofNat 32 (specials.getD ((i * 7 + i / 32) % 32) 0)),
        (2, (List.range 128).map fun i => BitVec.ofNat 32 (specials.getD ((i + i / 32 * 5 + 3) % 32) 0)), (3, (List.range 128).map fun i => BitVec.ofNat 32 (i * i * 7777777)),
        (4, (List.range 128).map fun i => BitVec.ofNat 32 (0x3C000000 + i * 0x123456)), (5, (List.range 128).map fun i => BitVec.ofNat 32 (0xBC000000 + i * 0x0123456)),
        (6, (List.range 128).map fun i => BitVec.ofNat 32 (0x3C000000 + i * 0x054321))]
  loops := [(0, ⟨3, 3, 1, 8, 12, false⟩), (1, ⟨5, 3, 2, 0, 20, true⟩)]
  ecr := [(0x201, 100), (0x203, 120)] }
/-- Its job runs, with a seed. -/
def stV (k : Core) : State := { stC k with hub := { (stC k).hub with jobs := [(0, { Job.reset with st := .running, seeds := [(0, ⟨1, 0x123456789, true⟩)] })] } }
/-- A ring slot. -/
def rsl (st : SlotSt) (landed : Option Nat) (due : Nat) : RSlot := ⟨st, 0, landed, due, [], [], false, 0, 0, 7⟩
/-- A ring descriptor. -/
def dsc (kind : Nat) (faddr : Nat) : Desc := ⟨kind, 0, 0, 0, 0, 0, 256, 3, 2, faddr, 2, 0⟩
/-- A core with rings of each kind. -/
def coreS : Core := { coreA with
  g := [(1, 1), (2, 16)]
  spad := (List.range 600).map fun i => (8192 + i * 3, BitVec.ofNat 8 (i % 255 + 1))
  rings := [(1, ⟨some (dsc 0 65536), [(1, rsl .issued (some 110) 0), (2, rsl .due none 0)], 0, 1, 2, []⟩),
            (2, ⟨some (dsc 1 65536), [], 1, 0, 0, [⟨4, 0, some 100, none, [], 512⟩, ⟨5, 0, some 90, some 99, [], 512⟩]⟩),
            (3, ⟨some (dsc 2 (3 * 65536 + 256)), [(2, rsl .issued (some 100) 106)], 0, 0, 0, []⟩),
            (4, ⟨some (dsc 4 (9 * 65536)), [(2, rsl .due none 0)], 1, 1, 2, []⟩),
            (6, ⟨some (dsc 0 65536), [(1, rsl .issued none 0)], 0, 1, 0, []⟩),
            (7, ⟨some (dsc 0 0), [(0, rsl .issued none 0), (1, rsl .due none 0)], 0, 0, 1, []⟩),
            (8, ⟨some (dsc 1 65536), [], 1, 0, 0, [⟨4, 0, some 100, none, [], 512⟩, ⟨5, 0, some 90, none, [], 512⟩, ⟨6, 0, some 90, none, [], 512⟩]⟩),
            (9, ⟨some (dsc 0 0), [], 0, 0, 1, []⟩)] }
/-- Its channel, with a region, a page and GDDR7. -/
def chS (k : Core) : Channel := { Channel.reset with
  st := .serving, sched := 100, cycles := 120, ft := 2 ^ 34 + 3, cores := [(3, { coreS with rings := [] }), (5, k)]
  regions := [(0, ⟨0, 0, 1, 4, 0, 0, false⟩)]
  famMap := [(0, BitVec.ofNat 64 (2 ^ 63 + 3 * 2 ^ 51 + 2 ^ 47 + 9 * 2 ^ 23 + 2 ^ 22 + 2 ^ 21))]
  gddr := (List.range 700).map fun i => (9 * 65536 + i, BitVec.ofNat 8 (i % 251 + 1)) }
/-- Its module. -/
def stS (k : Core) : State := { State.reset with ch := [(0, chS k)], dict := [(0x10001, 3)] }
/-- A beat for the fill port. -/
def bt (arrive order : Nat) (kind : BeatOf) : Beat := ⟨arrive, order, kind, [(8192, (List.range 256).map (BitVec.ofNat 8 ·))]⟩
/-- A transfer that the egress port reads. -/
def eg0 : Egress := ⟨99, 7, 4, 2, 256, 2, [1], [⟨3, 0, 1, 100⟩], 65536, false, none, o0⟩
/-- A put on its way. -/
def pf0 (dur : Bool) : PutFly := ⟨119, 2, 4, [⟨3, 0, 1, 100⟩], 65536, [1, 0, 3], dur, none, o0⟩
/-- A connection-table entry. -/
def cn (role : Nat) (strict isOpen : Bool) (queue : Nat) : Conn := ⟨role, strict, false, 3, queue, 1, 3, 0, 0, 3, true, 2, 1, 0, false, isOpen, 255, 65535, false⟩
/-- A message. -/
def ms (type seq sidx queue : Nat) : Msg := ⟨type, 3 * 512 + 3, 3 * 512 + 5, 6, 255, queue, sidx, seq, none, (List.range 512).map (BitVec.ofNat 8 ·), false, o0⟩
/-- A core with connections and queues. -/
def coreX : Core := { coreA with
  g := [(1, 1), (2, 16)]
  conns := [(0, cn 0 false false 2), (1, cn 0 false true 2), (2, cn 1 false true 2), (3, cn 2 false true 5), (6, cn 0 true true 9), (7, { cn 1 false true 4 with peerk := true })]
  queues := [(2, { Queue.reset with msgs := [(100, ms 0 3 2 2), (110, ms 0 4 2 2)] })]
  v := [(3, (List.range 128).map fun i => BitVec.ofNat 32 (i * i * 7777777))]
  ecr := [(0x3C5, 0x20003)] }
/-- Its channel, with a synchronisation object. -/
def chX (k : Core) : Channel := { Channel.reset with
  st := .serving, sched := 100, cycles := 120, ft := 2 ^ 34 + 3, cores := [(3, { coreA with status := .done }), (5, k)]
  objs := [(3, { ctr := 5, job := some 0, first := none, copy := 5, signals := [] })] }
/-- Its module. -/
def stX (f : Channel → Channel) (k : Core) : State := { State.reset with ch := [(0, f (chX k))], dict := [(0x10001, 3)] }
/-- A message on its way. -/
def mf (m : Msg) : MsgFly := ⟨120, true, none, m⟩
/-- A request from the host. -/
def rqA : Req := { port := .ahnec, cseq := 7 }
/-- The hub serving, the management program running. -/
def stR (f : Channel → Channel) (k : Core) (d : Tab Nat) : State :=
  { stX f k with
    dict := d.foldl (fun t e => tabSet t e.1 e.2) [(0x10001, 3), (0x12101, 3)]
    hub := { State.reset.hub with st := .serving, jobs := [(0, { Job.reset with st := .running })] } }
/-- A link control packet. -/
def lc : Lctl := { srcDev := 3, srcCh := 0, tag := 0x30000, step := 4, gen := 2, id := 9, time := 0x1000 }
/-- A running job. -/
def jb : Job := { Job.reset with st := .running, tasks := [(0, 5)], lead := (3, 0), chans := [(3, 0), (3, 1)] }
/-- Copies of a step. -/
def snap (step : Nat) : Snapshot :=
  { step := step, g := [(1, 9)], loops := [], skips := [⟨3, 2⟩], pc := 77, ecr := [], rings := [], conns := coreX.conns, coupl := [], rounds := [], nexts := [], sched := 55, rdig := 6, mapAt := 0 }
/-- One job in channel 0: its channel record, its module record, its core. -/
def stJ (v : JobCh) (b : Job) (k : Core) (f : Channel → Channel) : State :=
  { State.reset with
    ch := [(0, f { Channel.reset with st := .serving, sched := 100, cycles := 120, ft := 2 ^ 34 + 3, cores := [(5, k)], jobs := [(0, v)], routes := [(12, 0x88000000)] })]
    dict := [(0x10001, 3), (0x12101, 3)]
    hub := { State.reset.hub with st := .serving, time := 500, jobs := [(0, b)] } }
/-- A job in its channel. -/
def jc : JobCh := { JobCh.reset with placed := true, step := some 3, gotCommit := 3, sentClear := 3, committed := 3 }
/-- A packet. -/
def pk (tag tier addr : Nat) (body : List Byte) : Pkt :=
  { ddev := 3, dch := 0, sdev := 3, sch := 0, slot := 0, arg := BitVec.ofNat 64 (tag * 2 ^ 48 + tier * 2 ^ 46 + addr), body := body }
/-- A request that waits for its home. -/
def rq (write : Bool) (core : Option Nat) : Request :=
  { tag := 5, core := core, takers := [5], ring := 1, slot := 0, seq := 4, order := 9, write := write, cseq := 8, rel := none, job := 0, asked := 50, len := 512, parts := 1, got := [],
    home := ⟨4, 0, 1, 100⟩, alt := none, notes := [], org := o0 }
/-! ### The premises of the obligations are met: the coachman and the sequencer -/

/-- The machine of core 5 alone. -/
def s0 : State := stC coreA
/-- The address of a coachman load or store of core 5. -/
def ea (s : State) (base : BitVec 4) (off : BitVec 18) : Nat := (gReg (startCore s 5) base.toNat + off.signExtend 32).toNat
/-- The effective unit address of a register transfer of core 5. -/
def ua (s : State) (gi : BitVec 4) (addr : BitVec 16) : Nat := (gReg (startCore s 5) gi.toNat + addr.setWidth 32).toNat

theorem test_meets_IdleStep : ({ State.reset with pending := [] } : State).pending = [] ∧ State.reset.hub.turn = [] ∧
    (State.reset.hub.st = .off ∨ State.reset.hub.st = .standby) := by decide +kernel
theorem test_meets_CoachmanRegisterForms : canIssue s0 5 = true := by decide +kernel
theorem test_meets_CoachmanImmediateForms : canIssue s0 5 = true ∧ (0 : BitVec 18).toNat < 32 ∧ (31 : BitVec 18).toNat < 32 := by decide +kernel
theorem test_meets_CoachmanLoads : canIssue s0 5 = true ∧ Mem.wf (startCore s0 5).dmem = true ∧
    (ea s0 5 0 + 4 ≤ 65536 ∧ ea s0 5 0 % 4 = 0) ∧ (ea s0 5 2 + 2 ≤ 65536 ∧ ea s0 5 2 % 2 = 0) ∧ ea s0 5 3 + 1 ≤ 65536 ∧
    ea s0 5 0 + 4 = 65536 ∧ ea s0 5 2 + 2 = 65536 ∧ ea s0 5 3 + 1 = 65536 ∧ ea s0 0 0 = 0 := by decide +kernel
theorem test_meets_CoachmanStores : canIssue s0 5 = true ∧
    (ea s0 5 0 + 4 ≤ 65536 ∧ ea s0 5 0 % 4 = 0 ∧ touchesHeld (startCore s0 5) 1 (ea s0 5 0) 4 = false) ∧
    (ea s0 5 2 + 2 ≤ 65536 ∧ ea s0 5 2 % 2 = 0 ∧ touchesHeld (startCore s0 5) 1 (ea s0 5 2) 2 = false) ∧
    (ea s0 5 3 + 1 ≤ 65536 ∧ touchesHeld (startCore s0 5) 1 (ea s0 5 3) 1 = false) := by decide +kernel
theorem test_meets_CoachmanSpecialRegisters_counts : canIssue s0 5 = true ∧ (gReg (startCore s0 5) 2).toNat ≤ 16777215 := by decide +kernel
theorem test_meets_CoachmanSpecialRegisters_mte : canIssue s0 5 = true ∧
    (mteFault (startCore s0 5) 2 0x201 0 = none ∧ (0x201 : Nat) ≠ 0x300 ∧ ecrClears 0x201 = false) ∧
    (mteFault (startCore s0 5) 2 0x100 0 = none ∧ ecrClears 0x100 = true) ∧ ecrWritable 0x201 = true := by decide +kernel
theorem test_meets_CoachmanFaults_ranges : canIssue s0 5 = true ∧ (getCore s0 5).status = .running ∧ 65536 < ea s0 5 1 + 4 ∧
    65536 < ea s0 5 3 + 2 ∧ 65536 < ea s0 8 0 + 1 ∧ ea s0 8 0 = 65536 ∧ (ea s0 0 2 + 4 ≤ 65536 ∧ ea s0 0 2 % 4 ≠ 0) ∧
    (ea s0 0 1 + 2 ≤ 65536 ∧ ea s0 0 1 % 2 ≠ 0) := by decide +kernel
theorem test_meets_CoachmanFaults_held : let s := stC coreM
    canIssue s 5 = true ∧ (getCore s 5).status = .running ∧ ea s 0 100 + 4 ≤ 65536 ∧ ea s 0 100 % 4 = 0 ∧
      touchesHeld (startCore s 5) 1 (ea s 0 100) 4 = true := by decide +kernel
theorem test_meets_CoachmanFaults_fields : canIssue s0 5 = true ∧ (getCore s0 5).status = .running ∧ (0x2000 : BitVec 14) ≠ 0 ∧ (15 : BitVec 4) ≠ 0 ∧
    32 ≤ (32 : BitVec 18).toNat ∧ (ecrWritable 0x3FF = false ∧ ecrReadOnly 0x3FF = false) ∧ ecrReadOnly 0x000 = true ∧
    16777215 < (gReg (startCore s0 5) 7).toNat ∧ (gReg (startCore s0 5) 7).toNat = 16777216 ∧ 6 ≤ (6 : BitVec 3).toNat := by decide +kernel

/-- Levels 1 and 3 end at the row of the core, and level 1 goes back. -/
def coreL : Core := { coreA with pc := 12, loops := [(0, ⟨3, 3, 2, 8, 12, true⟩), (1, ⟨5, 3, 1, 0, 12, true⟩), (3, ⟨5, 3, 2, 0, 12, true⟩)] }
theorem test_meets_LoopSequencer : (∀ m, m < 4 → 1 < m → (loopOf coreL m).active = true → (loopOf coreL m).stop = coreL.pc ∧
      (loopOf coreL m).shadow ≤ (loopOf coreL m).index + 1) ∧ (loopOf coreL 1).active = true ∧
    ((loopOf coreL 1).stop = coreL.pc ∧ (loopOf coreL 1).index + 1 < (loopOf coreL 1).shadow) ∧
    ((loopOf coreL 3).active = true ∧ (loopOf coreL 3).stop = coreL.pc ∧ (loopOf coreL 3).shadow ≤ (loopOf coreL 3).index + 1) ∧
    (let k := { coreL with pc := 9 }; (loopOf k 3).active = true ∧ (loopOf k 3).stop ≠ k.pc) := by decide +kernel
theorem test_meets_SequencerInstructions_loop : canIssue s0 5 = true ∧ loopFault (startCore s0 5) 2 true 2 0 4095 = none ∧
    (gReg (startCore s0 5) 2).toNat ≠ 0 ∧ (let s := stC { coreA with loops := [] }
      loopFault (startCore s 5) 0 false 0 0 1 = none ∧ (loopOf (startCore s 5) 0).count = 0) := by decide +kernel
theorem test_meets_SequencerInstructions_inactive (l : Nat) : (loopOf (getCore (stC { coreA with loops := [] }) 5) l).active = false := rfl
theorem test_meets_SequencerInstructions_skip : canIssue s0 5 = true ∧ (1 : BitVec 6) ≠ 0 ∧ (63 : BitVec 6) ≠ 0 ∧
    gReg (startCore s0 5) 1 ≠ 0 ∧ gReg (startCore s0 5) 0 = 0 := by decide +kernel
theorem test_meets_HltAndStep : canIssue s0 5 = true ∧ (getCore s0 5).status = .running ∧ 0x90 ≤ (0x90 : Byte).toNat ∧ (0x9F : Byte).toNat ≤ 0x9F ∧
    ¬(0x90 ≤ (0x8F : Byte).toNat ∧ (0x8F : Byte).toNat ≤ 0x9F) ∧ ¬(0x90 ≤ (0xA0 : Byte).toNat ∧ (0xA0 : Byte).toNat ≤ 0x9F) ∧
    gReg (startCore s0 5) 1 ≠ 0 ∧ gReg (startCore s0 5) 0 = 0 ∧ (getCore s0 5).xq = [] ∧
    (let s := stC { coreA with xq := [⟨.couple 1, false, o0⟩] }
     canIssue s 5 = true ∧ (getCore s 5).xq ≠ [] ∧ (getCore s 5).status = .running) := by decide +kernel

/-! ### The L slot and the matrix engine -/

theorem test_meets_LoadsAndStores : let s := stC coreM
    let k := startCore s 5
    canIssue s 5 = true ∧ detects s 5 = false ∧ (65535 / 128 < 64 * 128) ∧
    (∀ x ∈ ([(0, 16, 31), (1, 128, 0), (2, 1, 0), (3, 128, 15), (4, 16, 15)] : List (Nat × Nat × Nat)), x.1 < 5 ∧ 8064 % x.2.1 = 0) ∧ (8064 : Nat) ≤ 65535 ∧
    8064 / 128 < k.bound ∧ segOn k 8064 = true ∧ (ua s 1 0 = 128 ∧ ua s 1 0 % 16 = 0 ∧ ua s 1 0 / 128 < k.bound) ∧
    touchesHeld k 0 8064 16 = false ∧ 8064 % 16 = 0 := by decide +kernel
theorem test_meets_HazardDetectorOnlyObserves : dGet s0 0x0600 3 ≠ 1 := by decide +kernel
theorem test_meets_MultiplyIssue : let s := stC { coreM with busyTill := 100 }
    canIssue s 5 = true ∧ detects s 5 = false ∧
    (mulBad (mulF (BitVec.ofNat 43 (2 ^ 39))) false = false ∧ (groupOf (startCore s 5) ((mulF (BitVec.ofNat 43 (2 ^ 39))).tgt / 4)).exact = false ∧ (startCore s 5).busyTill ≤ (getCh s 0).sched) ∧
    (let ok := fun (w : BitVec 43) => mulBad (mulF w) true = false ∧ (groupOf (startCore s 5) ((mulF w).tgt / 4)).exact = true
     ok (BitVec.ofNat 43 (2 ^ 39 + 2 ^ 35)) ∧ ok (BitVec.ofNat 43 (7 * 2 ^ 39 + 2 ^ 35)) ∧ ok (BitVec.ofNat 43 (11 * 2 ^ 39 + 2 ^ 35))) := by
  decide +kernel
theorem test_meets_EngineFaults_transfers : let s := stC { coreM with g := [(1, 65536)], segs := [(0, ⟨.off, 0, false⟩)] }
    let t := stC coreM
    canIssue s 5 = true ∧ (getCore s 5).status = .running ∧ 5 ≤ (5 : BitVec 3).toNat ∧ (1 : BitVec 5) ≠ 0 ∧ 16 ≤ (16 : BitVec 5).toNat ∧
    65535 < ua s 1 0 ∧ ua s 1 0 = 65536 ∧ (1 : Nat) % 16 ≠ 0 ∧ (8192 % 16 = 0 ∧ (startCore t 5).bound ≤ 8192 / 128 ∧ (startCore t 5).bound = 64) ∧
    (16 % 16 = 0 ∧ 16 / 128 < (startCore s 5).bound ∧ segOn (startCore s 5) 16 = false) ∧
    (1600 % 16 = 0 ∧ 1600 / 128 < (startCore t 5).bound ∧ segOn (startCore t 5) 1600 = true ∧ touchesHeld (startCore t 5) 0 1600 16 = true) := by
  decide +kernel
theorem test_meets_EngineFaults_multiplies : let s := stC { coreM with busyTill := 101 }
    canIssue s 5 = true ∧ (getCore s 5).status = .running ∧ (getCh s 0).sched < (startCore s 5).busyTill ∧
    mulBad (mulF (BitVec.ofNat 43 (15 * 2 ^ 39))) false = true ∧ (groupOf (startCore s 5) ((mulF (BitVec.ofNat 43 (4 * 2 ^ 33))).tgt / 4)).exact = true ∧
    (groupOf (startCore s 5) ((mulF 0).tgt / 4)).exact = false ∧ (1 : BitVec 43).toNat % 2 ^ 34 ≠ 0 := by decide +kernel
theorem test_meets_ClearAndImage : let s := stC { coreM with laneOp := List.replicate 4096 0 }
    canIssue s 5 = true ∧ detects s 5 = false ∧ (laneImages (startCore s 5)).isSome = true ∧
    (laneImages (startCore (stC coreM) 5) = none) ∧ (getCore (stC coreM) 5).status = .running := by decide +kernel
theorem test_meets_CheckRowStore : let s := stC coreM
    canIssue s 5 = true ∧ detects s 5 = false ∧ (vReg (startCore s 5) 2).length = 128 := by decide +kernel
theorem test_meets_AccumulatorUpdate : let m := mit (.clear 3 false 7) none
    let s := stC { coreM with mPipe := [m, ⟨200, .clear 0 true 5, none, o0⟩] }
    (getCore s 5).mPipe.filter (fun x => decide (x.due ≤ schedNow (getCh s 0))) = [m] ∧ ecrGet (getCore s 5) 0x006 = 0 := by decide +kernel
theorem test_meets_CheckVerdicts_agree : let s := stC { coreM with verdicts := [⟨120, 1, some (ci0 3 3), List.replicate 128 (3, 3), o0⟩] }
    ∀ v ∈ (getCore s 5).verdicts, v.due ≤ (getCh s 0).cycles → (∀ r ∈ v.res, r.1 = r.2 ∧ r.2 < 7) ∧ v.info = some (ci0 3 3) ∧
      (ci0 3 3).l % chkP = (ci0 3 3).c := by
  decide +kernel
theorem test_meets_CheckVerdicts_differ : let v : Verdict := ⟨120, 1, some (ci0 3 4), List.replicate 128 (3, 3), o0⟩
    let s := stC { coreM with verdicts := [v] }
    (getCore s 5).verdicts.filter (fun x => decide (x.due ≤ (getCh s 0).cycles)) = [v] ∧ v.info = some (ci0 3 4) ∧ (ci0 3 4).evaluated = true ∧
      ((ci0 3 4).l + (0 : BitVec 61).toNat) % chkP ≠ (ci0 3 4).c ∧ ∀ r ∈ v.res, r.1 = r.2 ∧ r.2 < 7 := by decide +kernel
theorem test_meets_CheckVerdicts_residue : let v : Verdict := ⟨120, 1, some (ci0 3 3), List.replicate 128 (3, 3), o0⟩
    let s := stC { coreM with verdicts := [v] }
    (getCore s 5).verdicts.filter (fun x => decide (x.due ≤ (getCh s 0).cycles)) = [v] ∧ v.info = some (ci0 3 3) ∧ (∀ r ∈ v.res, r.1 = r.2 ∧ r.2 < 7) ∧
      (ci0 3 3).l % chkP = (ci0 3 3).c ∧ v.res[(0 : BitVec 7).toNat]? = some (3, 3) ∧ v.res[(127 : BitVec 7).toNat]? = some (3, 3) ∧
      ∀ n : BitVec 3, n = 1 ∨ n = 6 → n ≠ 0 ∧ n ≠ 7 := by decide +kernel
theorem test_meets_Drains_issue : let s := stC coreM
    canIssue s 5 = true ∧ detects s 5 = false ∧ drnFault s (startCore s 5) (getCh s 0).sched 0 = none ∧
      drnFault s (startCore s 5) (getCh s 0).sched (BitVec.ofNat 43 (2 ^ 33 + 48)) = none ∧
      mrawFault (startCore s 5) (getCh s 0).sched (BitVec.ofNat 43 (2 ^ 41 + 8 * 2 ^ 36)) = none ∧ (groupOf (startCore s 5) 0).exact = false ∧
      (groupOf (startCore s 5) 1).exact = true ∧ (exAccs (groupOf (startCore s 5) 1)).length = 128 ∧ ((drnF 0).src = 0 ∧ (fastAcc (groupOf (startCore s 5) 0) 0).length = 128) := by
  decide +kernel
theorem test_meets_Drains_landing : ∀ u ∈ [none, some 48], let it : VItem := ⟨100, 2, u, [], false, false, some 1, [(3, 3)], [], o0⟩
    let s := stC { coreM with drains := [it, ⟨102, 2, none, [], true, false, some 1, [], [], o0⟩] }
    detects s 5 = false ∧ (getCore s 5).drains.filter (fun x => decide (x.due ≤ schedNow (getCh s 0))) = [it] ∧ it.grp = some 1 ∧
      ecrGet (getCore s 5) 0x006 = 0 ∧ ∀ r ∈ it.res, r.1 = r.2 ∧ r.2 < 7 := by
  decide +kernel

/-! ### The vector engine and the parameter update -/

/-- A V word of layout Table 5.1 with the fields that these checks use. -/
def vw (ty vd va vb bm ixl ixd ixa sub : Nat) : BitVec 42 :=
  BitVec.ofNat 42 (ty * 2 ^ 40 + vd * 2 ^ 35 + va * 2 ^ 30 + vb * 2 ^ 25 + bm * 2 ^ 23 + ixl * 2 ^ 10 + ixd * 2 ^ 9 + ixa * 2 ^ 8 + sub)
/-- The machine of a core with vectors. -/
def sv : State := stV coreV

theorem test_meets_VectorInt32Forms : canIssue sv 5 = true ∧ detects sv 5 = false ∧
    (∀ op ∈ [0x01, 0x02, 0x03, 0x06, 0x07, 0x0C, 0x0D, 0x0E, 0x0F, 0x10, 0x11, 0x0B],
      let w := vw 2 31 2 1 0 1 1 1 0
      (vF w).ty = 2 ∧ vBad op (vF w) = false) ∧
    (∀ op ∈ [0x08, 0x09], vBad op (vF (vw 2 3 2 0 0 0 0 0 0)) = false) ∧ vBad 0x12 (vF (vw 2 3 0 1 0 0 0 0 0)) = false ∧
    (∀ sub ∈ [0, 1, 2, 3, 4, 5], vBad 0x0A (vF (vw 2 3 2 1 0 0 0 0 sub)) = false ∧ (vF (vw 2 3 2 1 0 0 0 0 sub)).sub = sub) := by decide +kernel
theorem test_meets_VectorFloatForms : canIssue sv 5 = true ∧ detects sv 5 = false ∧
    (∀ ty ∈ [0, 1], (vF (vw ty 2 0 1 0 0 0 0 0)).ty < 2 ∧ (∀ op ∈ [0x01, 0x02, 0x03, 0x04, 0x05, 0x06, 0x07, 0x0A],
      vBad op (vF (vw ty 2 0 1 0 0 0 0 0)) = false) ∧ (∀ op ∈ [0x08, 0x09], vBad op (vF (vw ty 2 0 0 0 0 0 0 0)) = false) ∧
      vBad 0x12 (vF (vw ty 2 0 1 0 0 0 0 0)) = false) := by decide +kernel
theorem test_meets_VectorFunctions : canIssue sv 5 = true ∧ detects sv 5 = false ∧
    (∀ code ∈ List.range 10, let f := vF (BitVec.ofNat 42 ((vw 0 2 4 0 0 0 0 0 0).toNat / 16 * 16 + code)); vBad 0x13 f = false ∧ f.ty = 0) := by
  decide +kernel
theorem test_meets_VectorIntegerSums : canIssue sv 5 = true ∧ detects sv 5 = false ∧ (1 : BitVec 3) ≠ 0 ∧ (7 : BitVec 3) ≠ 0 ∧
    (vReg (startCore sv 5) 3).length = 128 := by decide +kernel
theorem test_meets_VectorConversions : let k := startCore sv 5
    canIssue sv 5 = true ∧ detects sv 5 = false ∧ vFault sv k 0x14 (vw 0 2 0 0 0 0 0 0 2) = none ∧
    cvtFault sv k (BitVec.ofNat 42 (0 * 2 ^ 38 + 1 * 2 ^ 34 + 3 * 2 ^ 29 + 2 ^ 19)) = none ∧ (vReg k 0).length = 128 ∧
    bencFault sv k (BitVec.ofNat 42 (7 * 2 ^ 38 + 2 * 2 ^ 33 + 2 * 2 ^ 24 + 2 ^ 23)) = none ∧
    packFault (BitVec.ofNat 42 (7 * 2 ^ 38 + 2 * 2 ^ 33 + 2 * 2 ^ 24)) false = none ∧
    packFault (BitVec.ofNat 42 (7 * 2 ^ 38 + 2 * 2 ^ 33 + 2 * 2 ^ 24)) true = none := by decide +kernel
theorem test_meets_VectorTopK : canIssue sv 5 = true ∧ detects sv 5 = false ∧ vLen (startCore sv 5) ≠ 0 ∧
    (∀ w ∈ [2 * 2 ^ 35, 2 ^ 40 + 30 * 2 ^ 35 + 63 * 2 ^ 24, 2 * 2 ^ 40 + 4 * 2 ^ 35], topkFault (BitVec.ofNat 42 w) = none) := by decide +kernel
/-- Finite operands in v4, v5 and v6. -/
def su : State := stV { coreV with v := coreV.v.drop 4 }
theorem test_meets_ParameterUpdates : let w : BitVec 42 := BitVec.ofNat 42 (7 * 2 ^ 37 + 4 * 2 ^ 32 + 5 * 2 ^ 27 + 6 * 2 ^ 17)
    let wp : BitVec 42 := BitVec.ofNat 42 (7 * 2 ^ 37 + 4 * 2 ^ 32 + 5 * 2 ^ 27 + 6 * 2 ^ 22 + 6 * 2 ^ 17)
    let k := startCore su 5
    canIssue su 5 = true ∧ detects su 5 = false ∧ (updF w).fz = false ∧ (updF wp).fz = false ∧
    (∀ i, i < 128 → (fv32 (laneW (updRegs k (updF wp)).1 i)).bad = false ∧ (fv32 (laneW (updRegs k (updF wp)).2.1 i)).bad = false ∧
      (fv32 (laneW (updRegs k (updF wp)).2.2 i)).bad = false ∧ (fv32 (laneW (vReg k (updF wp).vh) i)).bad = false) ∧
    (∀ op ∈ [0x20, 0x21, 0x22, 0x23, 0x25, 0x27], updFault op w = none) ∧ updFault 0x24 wp = none ∧
    updFault 0x26 (BitVec.ofNat 42 (7 * 2 ^ 37 + 4 * 2 ^ 32 + 2 * 2 ^ 4 + 2 ^ 3)) = none := by decide +kernel
theorem test_meets_ResultLandings_loads : ∀ kind ∈ [0, 1, 2, 3, 4], let i : LItem := ⟨100, kind, 2, some 4, zeros 512, o0⟩
    let s := stC { coreM with lPipe := [i, ⟨101, 0, 3, none, [], o0⟩] }
    detects s 5 = false ∧ (getCore s 5).lPipe.filter (fun x => decide (x.due ≤ schedNow (getCh s 0))) = [i] ∧
      (getCore s 5).vPipe.any (fun x => x.due == i.due && x.vd == i.reg) = false ∧ updateMeets (getCore s 5) i.due i.reg = false ∧ (groupOf (getCore s 5) (i.reg / 4)).exact = false := by decide +kernel
theorem test_meets_ResultLandings_discarded : let i : LItem := ⟨100, 4, 2, some 4, zeros 512, o0⟩
    let s := stC { coreM with lPipe := [i], mPipe := [⟨100, .fast 2 [], none, o0⟩] }
    (getCore s 5).lPipe.filter (fun x => decide (x.due ≤ schedNow (getCh s 0))) = [i] ∧ updateMeets (getCore s 5) i.due i.reg = true := by
  decide +kernel
theorem test_meets_ResultLandings_meeting : let i : LItem := ⟨100, 0, 2, some 4, zeros 512, o0⟩
    let s := stC { coreM with lPipe := [i], vPipe := [⟨100, 2, none, [], false, false, none, [], [], o0⟩] }
    detects s 5 = false ∧ (getCore s 5).lPipe.filter (fun x => decide (x.due ≤ schedNow (getCh s 0))) = [i] ∧
      (getCore s 5).vPipe.any (fun x => x.due == i.due && x.vd == i.reg) = true := by decide +kernel
theorem test_meets_ResultLandings_vectors : let i : VItem := ⟨100, 2, none, [], false, false, none, [], [], o0⟩
    let s := stC { coreM with vPipe := [i, { i with due := 101 }] }
    detects s 5 = false ∧ (getCore s 5).vPipe.filter (fun x => decide (x.due ≤ schedNow (getCh s 0))) = [i] ∧ i.sat = false ∧ i.nan = false := by
  decide +kernel
theorem test_meets_NarrowingKeepsRepresentable : fp16 ∈ [fp32, bf16, fp16, e5m2, e4m3] ∧ 0x7BFF < 2 ^ fp16.width ∧ decodeF fp16 0x7BFF ≠ .nan := by
  decide +kernel
theorem test_meets_NarrowingIsNearest : fp16 ∈ [fp32, bf16, fp16, e5m2, e4m3] ∧ (0x3C01 : Nat) < 2 ^ fp16.width ∧
    (toF fp16 .rne (.fin false 4097 (-12))).sat = false ∧
    (decodeF fp16 (toF fp16 .rne (.fin false 4097 (-12))).bits).dy.isSome = true ∧ (decodeF fp16 0x3C01).dy.isSome = true := by decide +kernel

/-! ### Stream rings -/

/-- The machine of a core with rings. -/
def sr : State := stS coreS
theorem test_meets_StreamFaults : let k := startCore sr 5
    canIssue sr 5 = true ∧ (getCore sr 5).status = .running ∧ (ringOf k 31).desc = none ∧
    ((ringOf k 2).desc = some (dsc 1 65536) ∧ (dsc 1 65536).slots ≤ uncredited (ringOf k 8) 100 ∧ (ringOf k 8).desc = some (dsc 1 65536)) ∧
    ((ringOf k 9).desc = some (dsc 0 0) ∧ (slotOf (ringOf k 9) (ringOf k 9).rel).st ≠ .due) ∧
    ((ringOf k 7).desc = some (dsc 0 0) ∧ (slotOf (ringOf k 7) (ringOf k 7).tail).st ≠ .free) ∧
    ((slotOf (ringOf k 9) (ringOf k 9).tail).st = .free ∧ regionAt (getCh sr 0) k.job (itemAddr (dsc 0 0) (itemIndex k false 0 0)) = none) := by
  decide +kernel
theorem test_meets_StreamDueReleaseDrain : let k := startCore sr 5
    let q := getCh sr 0
    canIssue sr 5 = true ∧ detects sr 5 = false ∧
    ((ringOf k 1).desc = some (dsc 0 65536) ∧ (dsc 0 65536).kind = 0 ∧ (slotOf (ringOf k 1) (ringOf k 1).head).st = .issued ∧
      landedBefore q 5 1 (ringOf k 1).head = true) ∧
    ((ringOf k 6).desc = some (dsc 0 65536) ∧ (slotOf (ringOf k 6) (ringOf k 6).head).st = .issued ∧ landedBefore q 5 6 (ringOf k 6).head = false) ∧
    ((slotOf (ringOf k 1) (ringOf k 1).rel).st = .due ∧ (slotOf (ringOf k 1) (ringOf k 1).rel).released = false) ∧
    ((ringOf k 4).desc = some (dsc 4 (9 * 65536)) ∧ (slotOf (ringOf k 4) (ringOf k 4).rel).st = .due ∧
      (slotOf (ringOf k 4) (ringOf k 4).rel).released = false) ∧
    ((ringOf k 3).desc = some (dsc 2 (3 * 65536 + 256)) ∧ (ringOf k 2).desc = some (dsc 1 65536) ∧
      putsBefore q 5 2 = true) := by decide +kernel
theorem test_meets_StreamGetAndPut : let k := startCore sr 5
    let d := dsc 0 65536
    canIssue sr 5 = true ∧ detects sr 5 = false ∧
    ((ringOf k 3).desc = some (dsc 2 (3 * 65536 + 256)) ∧ (ringOf (getCore sr 5) 3).desc = some (dsc 2 (3 * 65536 + 256)) ∧
      sgetFault sr 5 k 3 0 false 0 = none) ∧
    ((ringOf k 1).desc = some d ∧ sgetFault sr 5 k 1 0 false 0 = none ∧
      (translate sr 0 k.job (itemAddr d (itemIndex k false 0 0)) (itemBytes d) false false).toOption.map (fun x => (x.dests, x.alt)) =
        some ([⟨3, 0, 1, 9 * 65536⟩], none) ∧ ownDev sr = 3 ∧ rangeThere sr 0 1 (9 * 65536) (itemBytes d) = true) ∧
    (let e := dsc 1 65536
     (ringOf k 2).desc = some e ∧ e.kind = 1 ∧ uncredited (ringOf k 2) 100 < e.slots ∧
      (translate sr 0 k.job (itemAddr e (itemIndex k false 0 0)) (slotBytes e) true false).toOption.map (fun x => (x.top, x.stale)) =
        some (none, [])) := by decide +kernel
theorem test_meets_FillPort : let q := chS { coreS with fill := [bt 100 1 .recv] }
    let s := { stS coreS with ch := [(0, q)] }
    detects s 5 = false ∧ nextBeat (getCh s 0) (getCore s 5) = some (bt 100 1 .recv) ∧ (getCore s 5).grip = .free ∧
    (getCore { s with ch := [(0, { q with cores := [(5, { coreS with grip := .seized })] })] } 5).grip ≠ .free ∧
    (bt 100 1 .recv).writes = [(8192, (List.range 256).map (BitVec.ofNat 8 ·))] := by decide +kernel
theorem test_meets_FillPort_item : let b := bt 120 1 (.item 1 1 7 true)
    let s := stS { coreS with fill := [b] }
    nextBeat (getCh s 0) (getCore s 5) = some b ∧ (getCore s 5).grip = .free ∧ (slotOf (ringOf (getCore s 5) 1) 1).st ≠ .free ∧ (slotOf (ringOf (getCore s 5) 1) 1).seq = 7 ∧
      (slotOf (ringOf (getCore s 5) 1) 1).written = [] := by decide +kernel
theorem test_meets_EgressAndSiding_beat : let s := stS { coreS with egress := [eg0] }
    detects s 5 = false ∧ (getCore s 5).egress = [eg0] ∧ 2 ≤ eg0.left ∧ eg0.next ≤ schedNow (getCh s 0) ∧
      (getCore s 5).egQueue + 256 ≤ 65536 ∧ eg0.dests.all (fun t => t.tier != 0) = true := by decide +kernel
theorem test_meets_EgressAndSiding_put : let s := stS { coreS with putFly := [pf0 false] }
    (getCore s 5).putFly = [pf0 false] ∧ (pf0 false).due ≤ (getCh s 0).cycles ∧ (pf0 false).dests = [⟨3, 0, 1, 100⟩] ∧
      rangeThere s 0 1 100 (pf0 false).data.length = true := by decide +kernel
theorem test_meets_EgressAndSiding_durable : let k := { coreS with putFly := [pf0 true] }
    let s := { stS k with ch := [(0, { chS k with cores := [(5, k)] })] }
    (getCh s 0).cores = [(5, { getCore s 5 with putFly := [pf0 true] })] ∧ (pf0 true).dur = true ∧ (pf0 true).due ≤ (getCh s 0).cycles ∧
      (getCh s 0).sideUsed + (pf0 true).data.length ≤ 16777216 := by decide +kernel
/-- A remote read on its way to core 5, for core 3. -/
def fly0 : RemoteFly := ⟨100, 7, 5, 3, 2, 3, 2, 7, o0⟩
theorem test_meets_RemoteReads : let k := { coreS with rings := coreS.rings }
    let q := { chS k with remotes := [{ fly0 with reader := 3, source := 5 }], cores := [(3, coreS), (5, k)] }
    let s := { stS k with ch := [(0, q)] }
    let f : RemoteFly := { fly0 with reader := 3, source := 5 }
    (getCh s 0).remotes = [f] ∧ f.source = inCh 5 ∧ f.at_ ≤ schedNow (getCh s 0) ∧ remoteFault (getCore s 5) f.unit = none ∧ f.reader ≠ inCh 5 ∧
      (ringOf (coreOf (getCh s 0) 3) 3).desc = some (dsc 2 (3 * 65536 + 256)) ∧ f.ring = 3 := by decide +kernel
theorem test_meets_RemoteReads_detector (x : CoreId) : detects (stS coreS) x = false := by
  have h : decide (dGet (stS coreS) 0x0600 2 = 1) = false := by decide +kernel
  simp only [detects, h, Bool.false_and]
theorem test_meets_RemoteReads_check : let s := stS { coreS with rings := [(3, ⟨some (dsc 2 (3 * 65536 + 256)), [(2, rsl .issued (some 100) 100)], 2, 3, 2, []⟩)] }
    remoteChecks (schedNow (getCh s 0)) (getCore s 5) = [(3, 2)] ∧ (ringOf (getCore s 5) 3).desc = some (dsc 2 (3 * 65536 + 256)) ∧
      landedBefore (getCh s 0) (inCh 5) 3 2 = true := by decide +kernel
theorem test_meets_RemoteReads_release : let d : Desc := { dsc 3 0 with mask := 0x28 }
    let k := { coreS with rings := [(4, ⟨some d, [(2, { rsl .due none 0 with freed := [3], released := true })], 1, 1, 2, []⟩)] }
    let s := { stS k with ch := [(0, { chS k with srels := [⟨100, 5, 4, 2, 5⟩] })] }
    (getCh s 0).srels = [⟨100, 5, 4, 2, 5⟩] ∧ (100 : Nat) ≤ schedNow (getCh s 0) ∧ (ringOf (getCore s 5) 4).desc = some d ∧
      (∀ m ∈ itemCores (inCh 5) d, m = 5 ∨ m ∈ (slotOf (ringOf (getCore s 5) 4) 2).freed) := by decide +kernel
theorem test_meets_Segments : ∀ st ∈ [SegSt.zeroing, SegSt.shutdown], let s := stS { coreS with segs := [(1, ⟨st, 99, false⟩)] }
    (getCore s 5).segs = [(1, ⟨st, 99, false⟩)] ∧ (99 : Nat) < schedNow (getCh s 0) ∧ detects s 5 = false := by decide +kernel

/-! ### Messages and synchronisation -/

/-- The machine of a core with connections. -/
def sx : State := stX id coreX
theorem test_meets_XInstructions_ready : let q := getCh sx 0
    let x := getCore sx 5
    canIssue sx 5 = true ∧ detects sx 5 = false ∧ x.status = .running ∧ x.xq = [] ∧ x.xRan ≠ q.sched + 1 ∧ x.xHold ≤ q.sched ∧
      (startCore sx 5).xq = [] := by decide +kernel
theorem test_meets_XInstructions_send : let k := startCore sx 5
    let e := cn 0 false true 2
    connOf k 1 = some e ∧ e.role = 0 ∧ e.isOpen = true ∧ 0 ≤ e.size ∧ (16 : Nat) % 16 = 0 ∧
    (∀ u, u < 16 + 16 * (0 + 1) → 16 ≤ u → u / 128 < k.bound ∧ segOn k u = true) ∧ e.peerk = false ∧ addrHere sx (peerOf e) = true ∧
      chOf (addrCore (peerOf e)) = 0 := by decide +kernel
theorem test_meets_XInstructions_recv : let k := startCore sx 5
    let e := cn 1 false true 2
    endsOf k 2 = [e] ∧ e.role = 1 ∧ (queueOf (getCore sx 5) 2).msgs = (100, ms 0 3 2 2) :: [(110, ms 0 4 2 2)] ∧ (100 : Nat) < (getCh sx 0).cycles ∧
      (ms 0 3 2 2).payload.length = 512 := by decide +kernel
theorem test_meets_XInstructions_sel : let x := getCore sx 5
    (∀ i, i < 16 → (0b10100 : BitVec 16).getLsbD i = true → endsOf (startCore sx 5) i ≠ []) ∧ (0b10100 : BitVec 16).getLsbD 2 = true ∧
      (∀ i, i < 2 → (0b10100 : BitVec 16).getLsbD i = true → queuePresent (getCh sx 0) x i = false) ∧ endsOf x 2 = [cn 1 false true 2] := by decide +kernel
theorem test_meets_XInstructions_wait_and_signal : granted sx 0 (startCore sx 5) 3 = true ∧ (0xFFFF : BitVec 16) ≠ 0 := by decide +kernel
theorem test_meets_XInstructions_couple : let k := startCore sx 5
    (connOf k 2 = some (cn 1 false true 2) ∧ (cn 1 false true 2).role ≠ 0) ∧
    (connOf k 0 = some (cn 0 false false 2) ∧ (cn 0 false false 2).role = 0 ∧ (cn 0 false false 2).isOpen = false ∧ (getCore sx 5).egress = []) := by
  decide +kernel
theorem test_meets_XInstructions_head : ∀ e ∈ [XEntry.mk (.signal 3 7) false o0, ⟨.wait 3 4 true, true, o0⟩],
    let s := stX id { coreX with xq := [e] }
    brakeNow (getCh s 0) = false ∧ (getCh s 0).st = .serving ∧ (getCore s 5).status = .running ∧ (getCore s 5).xRan ≠ (getCh s 0).sched + 1 ∧
      (getCore s 5).xHold ≤ (getCh s 0).sched ∧ (getCore s 5).xq = [e] ∧ (getCore s 5).xWait = none := by decide +kernel
theorem test_meets_XInstructions_strict_recv : let e : XEntry := ⟨.recv 2 false 3 0, true, o0⟩
    let s := stX id { coreX with xWait := some e }
    brakeNow (getCh s 0) = false ∧ (getCh s 0).st = .serving ∧ (getCore s 5).status = .running ∧ (getCore s 5).xRan ≠ (getCh s 0).sched + 1 ∧
      (getCore s 5).xHold ≤ (getCh s 0).sched ∧ (getCore s 5).xq = [] ∧ (getCore s 5).xWait = some e ∧ endsOf (getCore s 5) 2 = [cn 1 false true 2] ∧
      (queueOf (getCore s 5) 2).msgs = (100, ms 0 3 2 2) :: [(110, ms 0 4 2 2)] ∧ (100 : Nat) < (getCh s 0).cycles := by decide +kernel
/-- A coupling of queue q2 with what its sender last sent. -/
def cpl (l : Option Nat) : Coupling := ⟨3 * 512 + 3, 6, 255, 2, 2, l⟩
/-- The machine with one message on its way to core 5. -/
def sm (m : Msg) (k : Core) : State := stX (fun q => { q with msgFly := [mf m] }) k
theorem test_meets_Messages : ∀ type ∈ [0, 1, 2, 3, 4], let m := ms type 3 2 2
    let s := sm m coreX
    (getCh s 0).msgFly = [mf m] ∧ (mf m).due ≤ (getCh s 0).cycles ∧ inCh (addrCore m.dst) = inCh 5 ∧ addrHere s m.src = true ∧
      chOf (addrCore m.src) = 0 ∧ m.fromNode = false ∧ m.type = type ∧ (mf m).same = true ∧ (getCore s 5).rxDie ≤ (getCh s 0).cycles ∧ (getCore s 5).pendHalt = none ∧
      (∀ e ∈ (getCore s 5).queues, (∀ p ∈ e.2.msgs, p.1 < (getCh s 0).cycles) ∧ e.2.slots = []) ∧ m.payload.length = 512 ∧ (getCh s 0).st = .serving ∧
      (getCore s 5).status = .running ∧ (queueOf (getCore s 5) 2).shut = false ∧ endsOf (getCore s 5) 2 = [cn 1 false true 2] := by decide +kernel
theorem test_meets_Messages_admitted : let m := ms 0 3 2 2
    let one := { coreX with queues := [(2, { Queue.reset with msgs := [(100, m)] })] }
    let full := { coreX with queues := [(2, { Queue.reset with msgs := List.replicate 2 (100, m) })] }
    let x := { one with coupl := [cpl none] }
    couplingFor x m = some (cpl none) ∧ x.coupl = [cpl none] ∧ (queueOf x 2).reading = none ∧ (queueOf x 2).msgs.length < (cn 1 false true 2).depth + 1 ∧
    (couplingFor { full with coupl := [cpl none] } m = some (cpl none) ∧ (queueOf full 2).msgs.length = (cn 1 false true 2).depth + 1) ∧
    couplingFor coreX m = none ∧
    (couplingFor { coreX with coupl := [cpl (some 4)] } m = some (cpl (some 4)) ∧ (4 + 65536 - m.seq) % 65536 ≤ 32768) := by decide +kernel
theorem test_meets_Messages_markers : let s := sm (ms 1 3 2 2) coreX
    (admitting s (getCore s 5) (ms 1 3 2 2)).isSome = true ∧ (getCore s 5).coupl.length < 512 ∧ admitting s (getCore s 5) (ms 1 3 2 9) = none := by
  decide +kernel
theorem test_meets_Messages_refusals : let x := { coreX with conns := [(1, cn 0 false true 2)] }
    let m := { ms 4 3 2 2 with entry := 1 }
    (connOf x 1 = some (cn 0 false true 2) ∧ x.conns = [(m.entry, cn 0 false true 2)] ∧ bits (ecrGet x 0x3C5).toNat 0 16 ≠ 0xFFFF ∧
      (cn 0 false true 2).gen = m.gen ∧ bits (ecrGet x 0x3C5).toNat 16 16 ≠ 0xFFFF) ∧
    (connOf coreX (ms 3 3 2 2).entry = some (cn 0 true true 9) ∧ (cn 0 true true 9).strict = true ∧ coreX.pendHalt = none ∧
      brakeNow (getCh (sm (ms 3 3 2 2) coreX) 0) = false) := by decide +kernel
theorem test_meets_Hoppers_contribution : let r : Coupling := { cpl none with queue := 5, via := 3 }
    let m := ms 0 0 1 5
    let s := sm m { coreX with coupl := [r], queues := [(5, { Queue.reset with slots := [(0, { HSlot.reset 0 with folded := 1, seen := [0] })] })] }
    let x := getCore s 5
    let h := hslotOf (queueOf x 5) 0
    endsOf x 5 = [cn 2 false true 5] ∧ (cn 2 false true 5).role = 2 ∧ (cn 2 false true 5).digest = false ∧ couplingFor x m = some r ∧ r.last = none ∧
      (queueOf x 5).shut = false ∧ (queueOf x 5).reading = none ∧ x.rxDie ≤ (getCh s 0).cycles ∧ mf m = ⟨120, true, none, m⟩ ∧
      (∀ e ∈ x.queues, e.2.msgs = [] ∧ ∀ h ∈ e.2.slots, h.2.wait = []) ∧ m.seq % ((cn 2 false true 5).depth + 1) = 0 ∧ h.expect = m.seq ∧
      m.sidx ≤ (cn 2 false true 5).hcount ∧ m.sidx ∉ h.seen ∧ m.sidx = h.folded := by decide +kernel
/-- A hopper slot whose first index is folded, the second waiting. -/
def hs0 : HSlot := { HSlot.reset 0 with
  seen := [0, 1], folded := 1, wait := [⟨119, false, { ms 0 0 1 5 with payload := (List.range 128).flatMap fun i => leBytes 4 (0x3F800000 + i * 4444) }⟩]
  sum := (List.range 128).flatMap fun i => leBytes 4 (0x40000000 + i * 777) }
theorem test_meets_Hoppers_fold : let e : Conn := { cn 2 false true 5 with size := 0 }
    let s := stX id { coreX with queues := [(5, { Queue.reset with slots := [(0, hs0)] })], conns := [(3, e)] }
    let x := getCore s 5
    let el := fun (b : List Byte) i => BitVec.ofNat 32 (fld b (4 * i) 4)
    ∀ w ∈ hs0.wait, x.queues = [(5, { Queue.reset with slots := [(0, hs0)] })] ∧ endsOf x 5 = [e] ∧ e.role = 2 ∧ e.harith = 1 ∧ e.size = 0 ∧
      hs0.wait = [w] ∧ w.msg.sidx = hs0.folded ∧ w.entered < (getCh s 0).cycles ∧ hs0.units = 0 ∧ w.msg.payload.length = 512 ∧ hs0.sum.length = 512 ∧
      (∀ j, j < 128 → (fastAdd (el hs0.sum j) (el w.msg.payload j)).sat = false ∧ (fastAdd (el hs0.sum j) (el w.msg.payload j)).nan = false) := by
  decide +kernel

/-- A synchronisation message of core 5 to object 3. -/
def sf (k : SyncMsg) : SyncFly := ⟨120, 3, 5, k, o0⟩
/-- Object 3 held by a job, at a count, beside what is on its way to it. -/
def obj3 (job : Option Nat) (ctr : Nat) (q : Channel) : Channel := { q with objs := [(3, { ctr := ctr, job := job, first := some 1, copy := 3, signals := [1] })] }
/-- A wait of core 6 that came before. -/
def w6 : SyncFly := { sf (.wait 4 false) with core := 6, due := 90 }
theorem test_meets_SynchronisationObjects_cycle :
    let s := stR (fun q => { obj3 (some 0) 9 q with syncFly := [sf (.signal 7), sf (.wait 4 true), { sf (.signal 7) with obj := 4 }], waits := [w6], frames := [(3, 5, 0), (4, 1, 0)] }) coreX []
    let q := getCh s 0
    let due := fun (g : SyncFly) => g.obj == 3 && decide (g.due ≤ q.cycles) && g.kind != .free
    let waits := q.waits.filter (fun g => g.obj == 3) ++ q.syncFly.filter fun g => due g && g.kind.isWait
    let ws := [sf (.wait 4 true), w6]
    brakeNow q = false ∧ homeMoves q 3 = false ∧ (∀ w, w < 32 → cGet s 0 (0x510 + w) 3 = 0) ∧ (∀ g ∈ q.syncFly, due g = true → g.due = q.cycles) ∧
      (q.frames.filter fun g => g.1 == 3) = [(3, 5, 0)] ∧ (objOf q 3).job = some 0 ∧ (getJob s 0).st = .running ∧ (objOf q 3).ctr + 5 + 7 < 2 ^ 32 ∧
      ws.Perm waits ∧ (ws.map (·.core)).Pairwise (· < ·) ∧ ∀ g ∈ ws, g.kind.isWait = true := by decide +kernel
theorem test_meets_SynchronisationObjects_overflow : let s := stR (fun q => { obj3 (some 0) (2 ^ 32 - 1) q with syncFly := [sf (.signal 7)] }) coreX []
    let q := getCh s 0
    brakeNow q = false ∧ homeMoves q 3 = false ∧ (∀ w, w < 32 → cGet s 0 (0x510 + w) 3 = 0) ∧ q.frames = [] ∧ q.waits = [] ∧
      q.syncFly = [sf (.signal 7)] ∧ (sf (.signal 7)).due = q.cycles ∧ 2 ^ 32 ≤ (objOf q 3).ctr + 7 ∧ (objOf q 3).ctr + 1 = 2 ^ 32 ∧
      (getCore s (mkCore 0 5)).status = .running ∧ (getCore s (mkCore 0 5)).pendHalt = none := by decide +kernel
theorem test_meets_SynchronisationObjects_frames : ∀ x ∈ ([(none, 9, 7, 0), (some 0, 9, 7, 2), (some 0, 9, 0, 0), (some 0, 2 ^ 32 - 1, 1, 0)] :
      List (Option Nat × Nat × Nat × Nat)), ∀ st ∈ [ChState.serving, .isolated],
    let s := stR (fun q => { obj3 x.1 x.2.1 q with frames := [(3, x.2.2.1, x.2.2.2)], st := st }) coreX []
    let q := getCh s 0
    (objOf q 3).job = x.1 ∧ (objOf q 3).ctr = x.2.1 ∧ (getJob s 0).st = .running ∧ s.hub.events.length < 8192 ∧ q.st = st ∧ homeMoves q 3 = false ∧
      (∀ w, w < 32 → cGet s 0 (0x510 + w) 3 = 0) ∧ q.syncFly = [] ∧ q.waits = [] ∧ (st = .serving → brakeNow q = false) := by decide +kernel
theorem test_meets_SynchronisationObjects_watch : ∀ w ∈ [0, 2, 31],
    let s := stR (obj3 (some 0) 9) coreX [(dk (0x1510 + w) 1, 3), (dk (0x1510 + w) 2, 9), (dk (0x1510 + w) 3, 1)]
    let q := getCh s 0
    brakeNow q = false ∧ homeMoves q 3 = false ∧ q.frames = [] ∧ q.syncFly = [] ∧ q.waits = [] ∧ (∀ i, i < 32 → i ≠ w → cGet s 0 (0x510 + i) 3 = 0) ∧
      cGet s 0 (0x510 + w) 3 = 1 ∧ cGet s 0 (0x510 + w) 1 = 3 ∧ cGet s 0 (0x510 + w) 2 ≤ (objOf q 3).ctr ∧ s.hub.events.length < 8192 := by decide +kernel
theorem test_meets_SynchronisationObjects_release : ∀ o ∈ [o0, { o0 with pc := 9 }],
    let f : SyncFly := { sf .free with org := o }
    let x := { coreX with xq := [⟨.wait 3 4 true, true, o0⟩, ⟨.couple 1, false, o0⟩] }
    let s := stX (fun q => { q with syncFly := [f] }) x
    (getCh s 0).syncFly = [f] ∧ f.core = inCh 5 ∧ f.due ≤ (getCh s 0).cycles ∧
      (getCore s 5).xq = ⟨.wait 3 4 true, true, o0⟩ :: [⟨.couple 1, false, o0⟩] := by decide +kernel
theorem test_meets_SynchronisationObjects_dump (i : Nat) : let s := stR (fun q => { q with objs := [] }) coreX []
    (objOf (getCh s 0) i).ctr < 2 ^ 32 ∧ (objOf (getCh s 0) i).job.getD 0xFFFF < 2 ^ 16 := by
  have h : objOf (getCh (stR (fun q => { q with objs := [] }) coreX []) 0) i = SyncObj.reset := rfl
  simp only [h]
  decide +kernel
theorem test_meets_SynchronisationObjects_grant : let s := stR (fun q => { q with objs := [] }) coreX [(dk 0x1501 1, 0), (dk 0x1501 2, 4096), (dk 0x1501 3, 0xFFFF)]
    portUp s rqA = true ∧ writeGate s rqA (cIdx 0 0x501) 4 = none ∧ 0 < cGet s 0 0x501 2 ∧ cGet s 0 0x501 1 + cGet s 0 0x501 2 ≤ 4096 ∧
      grantedToRunning s 0 0 4096 = false ∧ writeGate s rqA (cIdx 0 0x502) 3 = none ∧ writeGate s rqA (cIdx 0 (0x510 + 31)) 3 = none := by
  decide +kernel

/-! ### Time, the brake and steps -/

/-- An episode of seven cycles that is over. -/
def b0 : Brake := { Brake.reset with isOn := true, len := 7, first := ⟨1, 5, 2, .cycles 0⟩, sched := 50, ft := 9 }
theorem test_meets_Brake_end : let q := getCh (stR (fun q => { q with brake := b0 }) coreX []) 0
    q.brake.isOn = true ∧ q.brake.sched < q.sched ∧ q.brake.len ≠ 0 ∧ q.brake.causes.any (condHolds q) = false ∧ q.brake.first.code ≠ 8 := by decide +kernel
theorem test_meets_Brake_limit : let b := { b0 with causes := [⟨1, 5, 2, .cycles 3⟩], len := 850000000 }
    let s := stR (fun q => { q with brake := b }) coreX [(dk 0x1101 4, 850000000)]
    let q := getCh s 0
    brakeNow q = true ∧ q.brake.len = cGet s 0 0x101 4 ∧ q.brake.len ≠ 0 ∧ s.hub.events.length < 8192 ∧ q.brake.causes.any (condHolds q) = true := by
  decide +kernel
theorem test_meets_Brake_gap : ∀ gap ∈ [2, 3], let s := stR (fun q => { q with brake := { Brake.reset with gapCnt := 1 } }) coreX [(dk 0x1100 9, gap)]
    cGet s 0 0x100 9 = gap ∧ 2 ≤ gap ∧ (getCh s 0).brake.isOn = false ∧ (gap = 2 → (getCh s 0).brake.gapCnt + 1 = gap) ∧
      (gap = 3 → (getCh s 0).brake.gapCnt + 1 < gap) := by decide +kernel
theorem test_meets_Brake_absorbs : let b := { b0 with causes := [⟨1, 5, 2, .cycles 3⟩], gapCnt := 1 }
    let s := stR (fun q => { q with brake := b }) coreX [(dk 0x1100 9, 2)]
    cGet s 0 0x100 9 = 2 ∧ 2 ≤ (getCh s 0).brake.gapCnt + 1 ∧ brakeNow (getCh s 0) = true ∧ brakeEnds (getCh s 0) = false := by decide +kernel
theorem test_meets_OperatingPoints : let s := stR (fun q => { q with oppReq := some (600, 2 ^ 34 + 3) }) coreX [(dk 0x1100 2, 750)]
    (getCh s 0).oppReq = some (600, 2 ^ 34 + 3) ∧ 2 ^ 34 + 3 ≤ (getCh s 0).ft ∧ (getCh s 0).ft < 2 ^ 34 + 4 ∧ portUp s rqA = true ∧
      writeGate s rqA (cIdx 0 0x100) 3 = none ∧ cGet s 0 0x100 2 = 750 ∧ 750 ≤ opCeil s 0 ∧
      (let t := { s with hub := { s.hub with jobs := [(0, { Job.reset with st := .running, tasks := [(0, 5)], opceil := 600 })] } }
       opCeil t 0 < 750) := by decide +kernel
/-- A port that is UP and measures its delay. -/
def upPort : LinkPort := { LinkPort.reset with st := .up, echoT1 := some 100 }
/-- A channel that follows port 1. -/
def st1 (d : Tab Nat) : State := stR (fun q => { q with ports := [(1, upPort)], source := some 1, ftLocks := 15 }) coreX d
theorem test_meets_FabricTime : let s := st1 []
    (1 : Nat) < 4 ∧ (getPort (getCh s 0) 1).again = [] ∧ ({ upPort with again := [3] } : LinkPort).again ≠ [] ∧ (getPort (getCh s 0) 1).st = .up ∧ (getPort (getCh s 0) 1).rxSeq < 4096 ∧ (getPort (getCh s 0) 1).echoT1 = some 100 ∧
      (150 - 120 : Nat) ≤ 150 - 100 ∧ (getCh s 0).source ≠ none ∧ (getCh (stR id coreX []) 0).source = none := by decide +kernel
theorem test_meets_FabricTime_stamps : let s := st1 [(dk (cIdx 0 0x103) 3, 2)]
    ftPick (dSet s (lnkIdx 0 1) 7 3) 0 = some 1 ∧ ftPick (dSet (st1 []) (lnkIdx 0 1) 7 255) 0 ≠ some 1 ∧ dGet s (lnkIdx 0 1) 6 = 0 ∧
      ((16 : Int) + 0 - 0).natAbs ≤ 16 ∧ 16 < ((17 : Int) + 0 - 0).natAbs ∧ ((1024 : Int) + 0 - 0).natAbs ≤ 1024 ∧
      (let t := { s with hub := { s.hub with jobs := [] } }; chIdle t 0 = true ∧ ftPick (dSet t (lnkIdx 0 1) 7 3) 0 = some 1) := by decide +kernel
/-- Ports 1 and 2 are UP; FT_SOURCE is as given. -/
def st12 (src : Nat) : State := stR (fun q => { q with ports := [(1, upPort), (2, upPort)], source := some 1, ftLocks := 15 }) coreX [(dk (cIdx 0 0x103) 3, src)]
theorem test_meets_FabricTime_sources :
    (ftPick (dSet (st12 3) (lnkIdx 0 1) 7 3) 0 = some 2 ∧ (getCh (st12 3) 0).source ≠ some 2) ∧
    (ftPick (dSet (st12 4) (lnkIdx 0 1) 7 3) 0 = none ∧ (getCh (st12 4) 0).source ≠ none ∧ dGet (st12 4) (cIdx 0 0x103) 8 ≠ 1 ∧ cGet (st12 4) 0 0x103 3 ≠ 5) ∧
    (let s := { st12 3 with ch := [(0, { getCh (st12 3) 0 with source := some 2 })] }
     ftPick (dSet s (lnkIdx 0 1) 7 3) 0 ≠ some 1 ∧ ftPick (dSet s (lnkIdx 0 1) 7 3) 0 = (getCh s 0).source) := by decide +kernel
/-- A core that holds for a step. -/
def holds (n : Nat) : Core := { coreX with status := .holding, toLaunch := some n, snaps := [snap 3, snap 4, snap 5] }
theorem test_meets_Steps_launch : let s := stJ { jc with gotCommit := 4, launchFor := some (4, 2 ^ 34 + 3) } jb (holds 4) id
    let q := getCh s 0
    let v := jobOf q 0
    v.placed = true ∧ v.revoke = none ∧ v.step = some 3 ∧ v.launchFor = some (3 + 1, 2 ^ 34 + 3) ∧ (getJob s 0).released ≠ 3 + 1 ∧
      ((jobCores q 0).any fun c => (coreOf q c).toLaunch = some 3 ∧ (coreOf q c).status = .holding ∧ windowLoaded (coreOf q c)) = false ∧
      2 ^ 34 + 3 ≤ q.ft ∧ q.ft < 2 ^ 34 + 4 ∧ v.missed = false ∧ v.early = none ∧ q.staged = [] ∧ launchReady s 0 0 4 = true := by decide +kernel
theorem test_meets_Steps_barrier : let s := stJ { jc with step := none } { jb with st := .loaded, barrier := some 500, chans := [(3, 0)] } { holds 0 with snaps := [] } id
    (getJob s 0).barrier = some 500 ∧ 500 ≤ s.hub.time ∧ (getJob s 0).st = .loaded ∧ (getJob s 0).released = 0 ∧ jobHere (getJob s 0) = [0] ∧ (jobOf (getCh s 0) 0).early = none := by
  decide +kernel
theorem test_meets_Steps_clear : let s := stJ jc { jb with lead := (3, 1) } { coreA with rdig := 7, status := .done, doneAt := some 99, step := 3 } id
    clearReady (getCh s 0) 0 = some 3 ∧ (getJob s 0).lead = (ownDev s, 1) ∧
      clearReady (getCh (stJ jc jb { coreA with rdig := 7 } id) 0) 0 = none := by decide +kernel
theorem test_meets_Steps_cleared : let s := stJ jc { jb with leadStep := 4 } coreA id
    lc.srcDev.toNat = ownDev s ∧ taggedJob s lc.tag.toNat = some 0 ∧ (getJob s 0).lead = (ownDev s, 0) ∧ (getJob s 0).leadStep = lc.step.toNat ∧
      lc.srcCh.toNat = 0 ∧ (getJob s 0).chans = [(ownDev s, 0), (ownDev s, 1)] ∧ (getJob s 0).cleared = [] := by decide +kernel
theorem test_meets_Steps_commit : let s := stJ { jc with gotCommit := 4, sentClear := 5, inputs := [(4, [1]), (5, [2])] } jb (holds 4) id
    let v := jobOf (getCh s 0) 0
    v.placed = true ∧ v.gotCommit = lc.step.toNat ∧ v.sentClear = lc.step.toNat + 1 ∧ (getCh s 0).siding = [] ∧ taggedJob s lc.tag.toNat = some 0 := by
  decide +kernel
theorem test_meets_Steps_complete : ∀ a ∈ [true, false], let s := stJ { jc with commits := [⟨3, a, 1⟩] } jb (holds 4) id
    (jobOf (getCh s 0) 0).commits = ⟨3, a, 1⟩ :: [] ∧ (getCh s 0).siding = [] ∧ (getCh s 0).reqs = [] ∧ (getJob s 0).relWait = false := by decide +kernel
theorem test_meets_Steps_barrier_message : let s := stJ jc { jb with st := .loaded } coreA id
    lc.srcDev.toNat = ownDev s ∧ taggedJob s lc.tag.toNat = some 0 ∧ (getJob s 0).st = .loaded ∧ (getJob s 0).released = 0 := by decide +kernel
theorem test_meets_Steps_task_end : ∀ x ∈ [CoreStatus.halted, .running], let s := stJ jc { jb with st := .loaded } { coreX with status := .done } fun q =>
      { q with cores := q.cores ++ [(6, { coreX with status := x })] }
    (getCore s 5).status = .done ∧ coreQuiet (getCh s 0) (inCh 5) (getCore s 5) = true ∧ (getJob s (getCore s 5).job).st ≠ .running ∧
      (((jobCores (getCh s 0) (getCore s 5).job).filter (· != inCh 5)).any fun m => coreLive (coreOf (getCh s 0) m)) = (x == .running) := by decide +kernel
/-- A revoke to step 4. -/
def rv (p : RevPhase) (sh : List Nat) : Revoke := ⟨4, 2, 9, p, sh, []⟩
theorem test_meets_Revokes_told : let s := stJ { jc with step := some 4 } jb coreX id
    let v := jobOf (getCh s 0) 0
    lc.srcDev.toNat = ownDev s ∧ taggedJob s lc.tag.toNat = some 0 ∧ v.placed = true ∧ v.step = some lc.step.toNat ∧ v.gotCommit ≤ lc.step.toNat ∧
      v.gen < lc.gen.toNat ∧ v.acted < cGet s 0 0x700 5 ∧ (coreOf (getCh s 0) 5).pendHalt = none := by decide +kernel
theorem test_meets_Revokes_told_all (c : Nat) : (coreOf (getCh (stJ { jc with step := some 4 } jb coreX id) 0) c).pendHalt = none := by
  show (tabGet [(5, coreX)] Core.reset c).pendHalt = none
  simp only [tabGet, tabFind, List.lookup]
  cases c == 5 <;> rfl
theorem test_meets_Revokes_told_early : let s := stJ jc jb coreX id
    let v := jobOf (getCh s 0) 0
    lc.srcDev.toNat = ownDev s ∧ taggedJob s lc.tag.toNat = some 0 ∧ v.placed = true ∧ v.gotCommit ≤ lc.step.toNat ∧ v.early = none ∧
      v.step ≠ some lc.step.toNat ∧ (match v.step with | some m => m + 1 | none => 0) = lc.step.toNat := by decide +kernel
theorem test_meets_Revokes_drained : let x := { coreX with status := .stopped, snaps := [snap 4] }
    let s := stJ { jc with step := some 4, revoke := some (rv .draining []) } jb x id
    let v := jobOf (getCh s 0) 0
    v.revoke = some (rv .draining []) ∧ (rv .draining []).shunts = [] ∧ jobDrained s 0 0 = true ∧ (getCh s 0).cores = [(5, x)] ∧ x.job = 0 ∧
      x.status = .stopped ∧ x.snaps = [snap 4] ∧ (snap 4).step = (rv .draining []).step ∧ (snap 4).rings = [] ∧ v.appends = [] := by decide +kernel
theorem test_meets_Revokes_going_on : let s := stJ { jc with revoke := some (rv .holding []) } jb coreX id
    (jobOf (getCh s 0) 0).revoke = some (rv .holding []) ∧ (rv .holding []).phase ≠ .draining := by decide +kernel
theorem test_meets_Shunts : let s := stJ { jc with revoke := some (rv .shunting [5, 21]) } jb { coreX with status := .stopped, snaps := [snap 4] } id
    shuntIn (getCh s 0) 0 = some (0, rv .shunting [5, 21], 5) ∧ spareAt (getCh s 0) 0 = some 16 ∧ posOf (getCh s 0) 5 < 16 := by decide +kernel
theorem test_meets_Seizure : (getCh (stJ jc jb coreX fun q => { q with seize := some ⟨16, none⟩ }) 0).seize = some ⟨16, none⟩ := by decide +kernel
theorem test_meets_Control_resend : ∀ n ∈ [7, 8], let l : LctlOut := ⟨9, 3, lc, 3, 0, 7, n⟩
    let s := stJ jc jb coreX fun q => { q with lctls := [l] }
    (getCh s 0).lctls = [l] ∧ l.id = (9 : BitVec 16).toNat ∧ routePort (getCh s 0) l.ddev l.dch = some 8 ∧ (n = 7 → l.tries < 8) ∧ (n = 8 → 8 ≤ l.tries) ∧
      s.hub.events.length < 8192 := by decide +kernel

/-! ### Packets, memories and links -/

/-- A home with a route to itself. -/
def home (f : Channel → Channel) (d : Tab Nat) : State :=
  stR (fun q => f { q with routes := [(12, 0x88000000)], gddr := (chS coreS).gddr }) coreS d
theorem test_meets_Packets_home : let s := home id []
    (getCh s 0).st = .serving ∧ routePort (getCh s 0) 3 0 = some 8 ∧ ownDev s < 4096 ∧ bits (pk 5 1 589824 [100, 0, 0, 0]).arg.toNat 46 2 = 1 ∧
      (12, 5) ∉ (getCh s 0).seenTags ∧ (pk 5 1 0 []).arg.toNat / 2 ^ 48 = 5 ∧ 4 * (pk 5 1 0 []).sdev.toNat + (pk 5 1 0 []).sch.toNat = 12 ∧
      rangeThere s 0 1 589824 4096 = true ∧ rangeThere s 0 1 (389120 * 65536 - 4) 4 = true ∧ rangeThere s 0 1 (389120 * 65536 - 3) 4 = false ∧
      bits (pk 5 0 (7 * 2 ^ 21 + 300) [1]).arg.toNat 46 2 = 0 ∧ (12, 5) ∈ (getCh (home (fun q => { q with seenTags := [(12, 5)] }) []) 0).seenTags := by
  decide +kernel
theorem test_meets_Packets_home_cxl : ∀ st ∈ [2, 3, 4], let s := home id [(dk 0x1201 1, st), (dk 0x1201 4, 2 ^ 30)]
    bits (pk 5 2 77 [100, 0, 0, 0]).arg.toNat 46 2 = 2 ∧ rangeThere s 0 2 77 100 = true ∧ cGet s 0 0x201 1 = st ∧ (12, 5) ∉ (getCh s 0).seenTags ∧
      s.hub.events.length < 8192 := by decide +kernel
theorem test_meets_Packets_answers : ∀ r ∈ [rq false none, rq false (some 5), rq true (some 5)], let s := home (fun q => { q with reqs := [r] }) []
    reqOf (getCh s 0) ((pk 5 1 0 []).arg.toNat / 2 ^ 48) = some (r, 0) ∧ r.parts = 1 ∧ r.got = [] ∧ r.takers = [5] ∧
      (ringOf (coreOf (getCh s 0) 5) r.ring).desc = some (dsc 0 65536) ∧ bits (pk 5 0 (0x2A * 2 ^ 40) []).arg.toNat 40 8 = 0x2A ∧
      (getCore s 5).status = .running ∧ brakeNow (getCh s 0) = false ∧ (getCore s 5).pendHalt = none ∧
      (getCh s 0).reqs.erase r = [] ∧ r.rel = none ∧ r.notes = [] ∧ r.alt = none ∧ s.hub.events.length < 8192 ∧
      bits (pk 5 0 (0x01 * 2 ^ 40) []).arg.toNat 40 8 = 0x01 ∧ reqOf (getCh (home id []) 0) 5 = none := by decide +kernel
theorem test_meets_Packets_answers_in_parts : ∀ w ∈ [true, false], let r := { rq w none with parts := 2 }
    let s := home (fun q => { q with reqs := [r] }) []
    reqOf (getCh s 0) 5 = some (r, 0) ∧ reqOf (getCh s 0) 6 = some (r, 1) ∧ r.got = [] ∧ 1 < r.parts := by decide +kernel
theorem test_meets_Packets_notices : (getPort (getCh (home id []) 0) 2).tx = [] ∧ (getCh (home id []) 0).st ≠ .resetting ∧
    (getCh (home id []) 0).selfRef = false := by decide +kernel
theorem test_meets_Memories : let s := home (fun q => { q with st := .isolated }) []
    let t := { s with hub := { s.hub with time := 10000 } }
    (getCh t 0).st = .isolated ∧ (getCh t 0).refIdle + 10000 ≤ t.hub.time ∧
      (let u := home (fun q => { q with cores := [] }) [(dk 0x1201 1, 2)]; cGet u 0 0x201 1 = 2 ∧ (getCh u 0).cores = []) ∧
      cGet (home id [(dk 0x1201 1, 1)]) 0 0x201 1 = 1 ∧ ((4 : Byte) = 4 ∧ (32 : Byte) = 32) ∧ (9 : Byte) ≠ 8 ∧ (9 : Byte) ≠ 4 ∧ (9 : Byte) ≠ 2 ∧ (9 : Byte) ≠ 0 := by
  decide +kernel
/-- Port 1 in a state. -/
def prt (st : PortSt) (f : LinkPort → LinkPort) (d : Tab Nat) : State :=
  stR (fun q => { q with ports := [(1, f { LinkPort.reset with st := st })], routes := [(13, 0x80000000)] }) coreA d
/-- The flit that follows on a port just UP, with one packet for this channel. -/
def flit0 : List Byte := flitBytes true (flitHeader 1 2 0 4095 false true 0 0) (pktBytes 1 3 0 9 1 4 77 [1, 2, 3])
theorem test_meets_LinkPorts_flit : ∀ x ∈ fecDecode (padTo 256 flit0), x.2 = 0 ∧ x.1.length = 256 ∧ fld x.1 240 4 = crc32c (x.1.take 240) ∧
    bits (fld x.1 0 8) 60 4 = 1 ∧ bits (fld x.1 0 8) 46 12 = ((getPort (getCh (prt .up id []) 0) 1).rxSeq + 1) % 4096 ∧
    bit (fld x.1 0 8) 33 = false ∧ bit (fld x.1 0 8) 32 = true ∧ (pktOf (slice x.1 8 232)).ddev.toNat = ownDev (prt .up id []) ∧
    (pktOf (slice x.1 8 232)).dch = 0 ∧ bits (fld x.1 8 16) 64 13 ≤ 216 := by decide +kernel
theorem test_meets_LinkPorts_good : (fecDecode (padTo 256 flit0)).isSome = true ∧
    (fecDecode (padTo 256 ((List.range 256).map fun i => BitVec.ofNat 8 (i * i * 7 + 3)))).isNone = true := by decide +kernel
theorem test_meets_LinkPorts_states : ∀ st ∈ [PortSt.up, .down, .training, .shutdown, .restarting, .disabled], let s := prt st id [(dk 0x1400 2, 16383)]
    let p := getPort (getCh s 0) 1
    p.st = st ∧ p.sent = [] ∧ p.tx = [] ∧ p.replay = [] ∧ s.hub.events.length < 8192 ∧ portsLit (getCh s 0) = true ∧
      (5 : Byte).toNat ≤ dGet s (lnkIdx 0 1) 5 ∧ dGet s (lnkIdx 0 1) 5 < (6 : Byte).toNat ∧ dGet s (lnkIdx 0 1) 4 = 0xFFFFFFFF ∧ portUp s rqA = true ∧
      writeGate s rqA (lnkIdx 0 1) 1 = none ∧ writeGate s rqA (cIdx 0 0x400) 4 = none ∧ cGet s 0 0x400 2 = 16383 ∧
      (getPort (getCh (prt .up (fun p => { p with replay := [⟨3, 1, true, [], 0⟩] }) []) 0) 1).replay ≠ [] := by decide +kernel
/-- Channels 0 and 1 with their ends of the drawbar between them. -/
def drw (a b : PortSt) : State :=
  { prt a id [] with ch := [(0, { Channel.reset with ports := [(5, { LinkPort.reset with st := a })] }), (1, { Channel.reset with ports := [(4, { LinkPort.reset with st := b })] })] }
theorem test_meets_LinkPorts_drawbar : let e := fun (b : PortSt) => getPort (getCh (drw .up b) (5 - 4)) (4 + 0)
    (getPort (getCh (drw .up .up) 0) 5).st = .up ∧ (e .up).st = .up ∧ (e .up).sent = [] ∧ (e .up).tx = [] ∧ (e .down).st ≠ .up := by decide +kernel
theorem test_meets_LinkPorts_routes : let s := prt .up id []
    routeRefused (ownDev s) 0 40 0x81000000 = false ∧ routeRefused (ownDev s) 0 40 0x8F100000 = true := by decide +kernel

/-! ### The host port -/

/-- Both links in a state. -/
def ah (st : AhnSt) (f : Ahn → Ahn) (g : Hub → Hub) : State :=
  let s := stR id coreA []
  { s with hub := g { s.hub with st := .ready, time := 9, ahn := [(0, f { Ahn.reset with st := st }), (1, f { Ahn.reset with st := st })] } }
/-- An event frame. -/
def fr0 : Frame := ⟨2, 3, 1, 0, 0xFFFF, 5, [1, 2, 3, 4]⟩
/-- The bytes of a good frame of class 2 that is the first of its link and class. -/
def good0 : List Byte :=
  let h := leBytes 1 0x5A ++ leBytes 1 2 ++ leBytes 2 4 ++ leBytes 2 0 ++ leBytes 2 0xFFFF ++ leBytes 4 0 ++ leBytes 4 0 ++ leBytes 2 1 ++
    leBytes 2 0xFFFF ++ leBytes 8 5
  let b := padTo 60 (h ++ leBytes 4 (crc32c h) ++ [1, 2, 3, 4])
  b ++ leBytes 4 (crc32c b)
theorem test_meets_HostLinks_frame : let s := ah .up id id
    (getAhn s 0).st = .up ∧ 32 ≤ good0.length ∧ fld good0 28 4 = crc32c (good0.take 28) ∧ fld good0 0 1 = 0x5A ∧ fld good0 2 2 = 4 ∧
    good0.length = frameLen 4 ∧ fld good0 (frameLen 4 - 4) 4 = crc32c (good0.take (frameLen 4 - 4)) ∧
    fld good0 4 2 = ((getAhn s 0).rxSeq + 1) % 65536 ∧ fld good0 8 1 = 0 ∧ ahnKnown (ahnParse good0) = true ∧
    fld good0 12 4 = tabGet s.hub.rxCseq 0 (fld good0 1 1) ∧ s.hub.early = [] ∧ s.hub.out = [] := by decide +kernel
theorem test_meets_HostLinks_bad : fld (List.replicate 40 9) 28 4 ≠ crc32c ((List.replicate 40 9).take 28) := by decide +kernel
theorem test_meets_HostLinks_states : ∀ st ∈ [AhnSt.dark, .training, .up, .shutdown, .restarting, .disabled], let s := ah st id id
    (getAhn s 0).st = st ∧ s.hub.events.length < 8192 ∧ s.hub.out = [] ∧ (getAhn s 0).replay = [] ∧ s.hub.st = .ready ∧ portUp s rqA = true ∧
      writeGate s rqA (0x0110 + 0) 1 = none := by decide +kernel
theorem test_meets_HostLinks_waiting : (getAhn (ah .up (fun a => { a with replay := [(3, fr0)] }) id) 0).replay ≠ [] ∧
    (ah .up id (fun h => { h with early := [(0, fr0)] })).hub.early = [(0, fr0)] ∧ fr0.cls = (2 : BitVec 3).toNat := by decide +kernel
theorem test_meets_HostLinks_events : let s := ah .up (fun a => { a with credits := [(4, 60)] }) fun h => { h with events := List.replicate 150 (zeros 64) }
    s.hub.events ≠ [] ∧ s.hub.evLost = 0 ∧ ahnCan (getAhn s 0) (eventFrame s) = true := by decide +kernel
/-- A module that serves data frames. -/
def ds (f : Channel → Channel) (k : Core) : State :=
  stR (fun q => f { q with regions := (chS k).regions, famMap := (chS k).famMap, gddr := (chS k).gddr }) k []
theorem test_meets_DataFrames_away : let s := ds id coreX
    s.hub.st = .serving ∧ (64 ≤ (64 : BitVec 16).toNat ∧ (getJob s 1).st = .free) ∧ (getJob s 0).st = .running ∧
    (getCh (ds (fun q => { q with st := .isolated }) coreX) 0).st ≠ .serving ∧ (65537 : Nat) % 32 ≠ 0 ∧ dataRange (9 * 65536) 32 = true ∧
    regionAt (getCh s 0) 0 (9 * 65536) = none := by decide +kernel
theorem test_meets_DataFrames_access : let s := ds id coreX
    dataRange 65536 512 = true ∧ (∀ w ∈ [true, false], (translate s 0 0 65536 512 w true).toOption.map (fun x => (x.dests, x.top, x.stale, x.alt)) =
      some ([⟨3, 0, 1, 9 * 65536⟩], none, [], none)) ∧ ownDev s = 3 ∧ rangeThere s 0 1 (9 * 65536) 512 = true ∧ (getCh s 0).reqs = [] := by
  decide +kernel
theorem test_meets_DataFrames_message : let e : Conn := { cn 1 false true 4 with peerk := true }
    let full := { coreX with queues := [(4, { Queue.reset with msgs := List.replicate 2 (100, ms 0 3 2 4) })] }
    let s := ds id coreX
    (getCh s (chOf 5)).st = .serving ∧ (getCore s 5).job = 0 ∧ (getCore s 5).status = .running ∧ (queueOf (getCore s 5) 4).shut = false ∧
      (queueOf (getCore s 5) 4).reading = none ∧ endsOf (getCore s 5) 4 = [e] ∧ e.role = 1 ∧ e.peerk = true ∧ e.isOpen = true ∧ msgLen 512 = true ∧
      (queueOf (getCore s 5) 4).msgs.length < e.depth + 1 ∧ (queueOf full 4).msgs.length = e.depth + 1 := by decide +kernel
theorem test_meets_DataFrames_timeout : ∀ w ∈ [true, false], let s := ds (fun q => { q with reqs := [rq w none] }) coreX
    let t := { s with hub := { s.hub with time := 10 ^ 10 } }
    oldestReq t = some (0, rq w none) ∧ (getCh t 0).reqs = [rq w none] ∧ (rq w none).core = none ∧ (rq w none).rel = none ∧
      oldestReq (ds id coreX) = none := by decide +kernel

/-! ### Jobs, objects and management -/

/-- A chunk of two rows. -/
def ck : List Byte := (List.range 64).map (BitVec.ofNat 8 ·)
/-- A section of a manifest. -/
def sc (ty len : Nat) : Sec := { type := ty, target := 0, offset := 0, length := len, aux := 0, hash := 0 }
/-- A load in a state. -/
def load (st : JobSt) : Job := { jb with
  st := st, accepted := true, manifest := zeros 256 ++ sm3 ck, secs := [sc 4 10, sc 0x10 64], bodies := [(0, [1, 2])]
  latched := [(0, [1] ++ zeros 10 ++ [1] ++ zeros 20)], seeds := [(0, ⟨2, 5, true⟩), (1, ⟨1, 6, true⟩)] }
/-- Job slot 0 with a load. -/
def sj (b : Job) (d : Tab Nat) : State :=
  let s := stR id coreX d
  { s with hub := { s.hub with st := .ready, jobs := [(0, b)] } }
theorem test_meets_JobSlots_place : let s := sj Job.reset [(dk 0x640 6, 8191)]
    portUp s rqA = true ∧ writeGate s rqA 0x640 7 = none ∧ (getJob s 0).st = .free ∧ dGet s 0x640 6 + 1 ≤ 8192 ∧ writeGate s rqA 0x640 2 = none ∧
      allZero (List.replicate 32 (3 : Byte)) = false ∧ (getJob (sj (load .loaded) []) 0).st ≠ .free := by decide +kernel
theorem test_meets_JobSlots_manifest : let s := sj { load .receiving with accepted := false, manifest := [5, 6] } []
    let b := getJob s 0
    let found := fun (m x : List Byte) => arrivedRej (checkHeader (m ++ x) (dGet s 0x600 2 = 1)) m.length (m ++ x).length
    (found [5, 6] (zeros 2)).isSome = true ∧ found [0x4D, 0x49] [0x4A] = none ∧
    s.hub.st = .ready ∧ b.st = .receiving ∧ b.accepted = false ∧ (2 : BitVec 40).toNat = b.manifest.length ∧ b.manifest.length + 253 < 256 ∧
      b.hdrOk = false ∧ (0 : BitVec 40).toNat ≠ b.manifest.length ∧ (getJob (sj (load .ended) []) 0).st = .ended := by decide +kernel
theorem test_meets_JobSlots_sections : let b := getJob (sj (load .receiving) []) 0
    b.accepted = true ∧ nextSmall b = some (0, sc 4 10) ∧ (2 : Nat) = (tabGet b.bodies [] 0).length ∧ 2 + 7 < (sc 4 10).length := by decide +kernel
theorem test_meets_JobSlots_chunk : let s := sj (load .loaded) []
    let b := getJob s 0
    let e := sc 0x10 64
    b.st = .loaded ∧ b.secs[1]? = some e ∧ 0 < chunkCount e.length ∧ chunkCores b e 0 = [(chOf 0, inCh 0)] ∧ ck.length = min 8192 (e.length - 8192 * 0) ∧
      sm3 ck = chunkHash b.manifest b.secs 1 0 ∧ 0 ≤ (getCore s 0).pin / 256 + 15 := by decide +kernel
theorem test_meets_JobSlots_seed_and_launch : let s := sj { load .loaded with chans := [(3, 0)] } []
    let b := getJob s 0
    writeGate s rqA 0x640 9 = none ∧ tabFind b.seeds (dGet s 0x640 8) = some ⟨2, 5, true⟩ ∧ b.launched = false ∧
      tabFind b.seeds (dGet (sj b [(dk 0x640 8, 1)]) 0x640 8) = some ⟨1, 6, true⟩ ∧ writeGate s rqA 0x640 10 = none ∧ seedsMissing b = false ∧
      (∀ ch ∈ jobHere b, (getCh s ch).ft ≤ 2 ^ 34 + 3 ∧ 2 ^ 34 + 2 < (getCh s ch).ft) ∧ writeGate s rqA 0x640 12 = none ∧ otherModules s 0 = [] ∧
      writeGate s rqA 0x640 13 = none ∧ (getJob (sj (load .rejected) []) 0).st = .rejected ∧
      (getJob (sj { load .loaded with barrier := some 5 } []) 0).barrier ≠ none ∧ b.barrier = none := by decide +kernel
theorem test_meets_Objects : let s := sj (load .loaded) []
    portUp s rqA = true ∧ absentPort 0x1602 = false ∧ reachGate s rqA 0x0999 1 false = some 0x01 ∧ reachGate s rqA 0x0000 1 false = none ∧
      (objFind 0x0000 1).map (·.acc) = some .con ∧ writeGate s rqA 0x0000 1 = some 0x03 ∧ writeGate s rqA 0x0201 6 = some 0x03 := by decide +kernel
theorem test_meets_Security_answers : let s := sj (load .loaded) []
    mgmtHears s rqA = true ∧ quoteRefused s rqA 1 = false ∧ quoteRefused s rqA (2 ^ 33 - 1) = true ∧ writeGate s rqA 0x0301 1 = none ∧
      writeGate s rqA 0x0510 4 = none := by decide +kernel
theorem test_meets_Security_program : let s := dSet (sj (load .loaded) []) 0x0121 1 2
    writeGate s ⟨.mgmt, 9⟩ 0x0121 4 = none ∧ dGet s 0x0121 1 ≠ 3 := by decide +kernel
theorem test_meets_ManagementPort : let s := { sj (load .loaded) [] with hub := { (sj (load .loaded) []).hub with mgmt := { Mgmt.reset with eid := 8 } } }
    let m := vendorMsg 1 7 0 ([2, 0] ++ leBytes 2 0x202 ++ [1, 0, 1, 0, 5])
    let e := vendorMsg 3 7 0 [64]
    s.hub.st ≠ .off ∧ s.hub.mgmt.eid ≠ 0 ∧ s.hub.mgmt.dyn = 0 ∧ (vendorBad m = false ∧ fld m 5 1 = 1 ∧ fld m 9 1 = 2 ∧ m.length = 17 + fld m 15 2) ∧
      (vendorBad e = false ∧ fld e 5 1 = 3 ∧ fld e 9 1 = 64) ∧ vendorBad (vendorMsg 9 7 0 []) = true ∧
      (let d := vendorMsg 1 7 0 ([1, 0] ++ leBytes 2 0x101 ++ [2, 0, 0, 0]); vendorBad d = false ∧ 17 ≤ d.length ∧ fld d 9 1 = 1) := by decide +kernel

/-! ### Recovery, transitions and the journal -/

/-- A job loaded in channel 0, the fabric map of another. -/
def sk (f : Channel → Channel) (d : Tab Nat) : State :=
  let s := stJ { jc with gotCommit := 2 } jb coreX f
  { s with
    dict := d.foldl (fun t e => tabSet t e.1 e.2) s.dict
    hub := { s.hub with jobs := [(1, jb)], tpks := [(1, zeros 8 ++ [2, 0, 0, 0] ++ zeros 17012), (9, [2])] } }
theorem test_meets_Checking_map : let s := sk (fun q => { q with regions := [(0, ⟨0, 0, 1, 4, 0, 0, false⟩)] }) [(dk (cIdx 0 0x302) 1, 3)]
    let raw := 2 ^ 127 + 2 * 2 ^ 111 + 9 * 2 ^ 70 + 2 ^ 50 + 7 * 2 ^ 31
    let e := 2 ^ 63 + 3 * 2 ^ 51 + 2 ^ 47 + 9 * 2 ^ 23 + 2 ^ 22 + 2 ^ 21
    writeGate s rqA (cIdx 0 0x301) 64 = none ∧ bit raw 127 = true ∧ regionRefused s 0 63 (regionOf raw) = false ∧
      regionUser s 0 63 (some (regionOf raw)) = none ∧ regionRefused s 0 63 (regionOf (2 ^ 127)) = true ∧ (5 : BitVec 64) ≠ 0 ∧
      writeGate s rqA (cIdx 0 0x302) 3 = none ∧ cGet s 0 0x302 1 = 3 ∧ entryWriteRefused s 0 3 e = false ∧ entryUser s 0 3 = none ∧
      entryWriteRefused s 0 3 5 = true := by decide +kernel
/-- A released job at step 2, whose lead is here. -/
def jr : Job := { jb with released := 3, leadStep := 2, chans := [(3, 0)], lead := (3, 0) }
/-- The machine of `sk` with that job alone. -/
def sr1 (b : Job) (f : Channel → Channel) (d : Tab Nat) : State := let s := sk f d; { s with hub := { s.hub with jobs := [(0, b)] } }
theorem test_meets_Checking_map_staged : let raw : BitVec 128 := BitVec.ofNat 128 (2 ^ 127 + 2 * 2 ^ 111 + 9 * 2 ^ 70 + 2 ^ 50 + 7 * 2 ^ 31)
    let e : BitVec 64 := BitVec.ofNat 64 (2 ^ 63 + 3 * 2 ^ 51 + 2 ^ 47 + 9 * 2 ^ 23 + 2 ^ 22 + 2 ^ 21)
    let s := sr1 jr (fun q => { q with regions := [(0, ⟨0, 0, 1, 4, 0, 0, false⟩)] }) [(dk (cIdx 0 0x302) 1, 3)]
    entryUser s 0 3 = some 0 ∧ famBad (famView s 0 (some 0)) 0 (.entry 3 e) = false ∧ stagingRoom (getCh s 0) (.entry 3 e) = true ∧
      (let t := { s with hub := { s.hub with jobs := [(0, jr), (2, jr)] } }
       regionUser t 0 1 (some (regionOf raw.toNat)) = some 2 ∧ famBad (famView t 0 (some 2)) 0 (.region 1 raw) = false ∧
         stagingRoom (getCh t 0) (.region 1 raw) = true) := by decide +kernel
theorem test_meets_Checking_revoke : let s := sr1 jr (fun q => { q with jobs := [(0, { jc with step := some 2, gotCommit := 2 })] }) [(dk (cIdx 0 0x701) 1, 0)]
    writeGate s rqA (cIdx 0 0x701) 2 = none ∧ cGet s 0 0x701 1 = 0 ∧ (jobOf (getCh s 0) 0).placed = true ∧ (getJob s 0).released = 2 + 1 ∧
      commitSent s 0 0 2 = false ∧ (jobOf (getCh s 0) 0).step = some 2 ∧ (jobOf (getCh s 0) 0).gotCommit ≤ 2 ∧ siblings s 0 0 = [] ∧
      otherModules s 0 = [] ∧ (jobOf (getCh s 0) 0).acted < cGet s 0 0x700 5 ∧
      (let t := sr1 { jr with leadStep := 3 } (fun q => { q with jobs := [(0, { jc with step := some 2, gotCommit := 2 })] }) [(dk (cIdx 0 0x701) 1, 0)]
       (getJob t 0).released = 2 + 1 ∧ commitSent t 0 0 2 = true) := by
  decide +kernel
theorem test_meets_Checking_revoke_all (c : Nat) : (coreOf (getCh (sr1 jr (fun q => { q with jobs := [(0, { jc with step := some 2, gotCommit := 2 })] })
    [(dk (cIdx 0 0x701) 1, 0)]) 0) c).pendHalt = none := by
  show (tabGet [(5, coreX)] Core.reset c).pendHalt = none
  simp only [tabGet, tabFind, List.lookup]
  cases c == 5 <;> rfl
theorem test_meets_Checking_positions : let s := sk (fun q => { q with posSt := [(16, .failed)], posClean := [(16, true)] }) []
    writeGate s rqA (cIdx 0 0x703) 1 = none ∧ posState (getCh s 0) 0 16 = .failed ∧ tabGet (getCh s 0).posClean false (posKey 0 16) = true ∧
      posState (getCh s 0) 0 5 ≠ .failed ∧ writeGate s rqA (cIdx 0 0x703) 2 = none ∧ coreAt (getCh s 0) 0 16 = none ∧ (getCh s 0).seize = none ∧
      coreAt (getCh s 0) 0 5 = some 5 ∧ (coreOf (getCh s 0) 5).status = .running := by
  decide +kernel
theorem test_meets_Checking_windows : let s := sk id [(dk (cIdx 0 0x705) 1, 16), (dk (cIdx 0 0x705) 2, 5), (dk (cIdx 0 0x705) 3, 6), (dk (cIdx 0 0x705) 4, 1)]
    writeGate s rqA (cIdx 0 0x705) 5 = none ∧ cGet s 0 0x705 1 = 16 ∧ cGet s 0 0x705 2 = 5 ∧ cGet s 0 0x705 3 = 6 ∧ (getCh s 0).insps = [] ∧
      coreAt (getCh s 0) (16 / 32) (16 % 32) = none ∧ tpkState s 1 = 2 ∧ tpkCount (tpkBytes s 1) = 2 ∧
      resultLen (fld (tpkRecord (tpkBytes s 1) 0) 7 1) = 4096 := by decide +kernel
theorem test_meets_Checking_window_runs : ∀ x ∈ [(true, 5), (true, 2 ^ 40), (false, 5)], let w : Insp := ⟨16, .spareFree, 2, x.2, 1, x.1, 0, 0, 0, 0, none⟩
    let s := sk (fun q => { q with insps := [w], posSt := [(16, .inspecting)] }) []
    (getCh s 0).insps = [w] ∧ w.open_ = x.1 ∧ w.start ≤ (getCh s 0).ft ∧ (x.2 = 5 → w.stop ≤ (getCh s 0).ft) ∧ tpkState s w.pkg = 2 ∧
      w.next < tpkCount (tpkBytes s w.pkg) ∧ w.failed = 0 ∧ (x.2 = 2 ^ 40 → w.began + 200000 / max 1 (getCh s 0).mhz < w.stop) ∧
      posState (getCh s 0) (keyPos w.pos).1 (keyPos w.pos).2 = .inspecting := by
  decide +kernel
theorem test_meets_Checking_halt : let s := sk id [(dk (cIdx 0 0x600) 1, 5)]
    writeGate s ⟨.mgmt, 9⟩ (cIdx 0 0x600) 11 = none ∧ cGet s 0 0x600 1 = inCh 5 ∧ (getCore s 5).status = .running ∧ brakeNow (getCh s 0) = false ∧
      (getCore s 5).pendHalt = none := by decide +kernel
/-- Four channels in a state, every port DISABLED. -/
def four (m : ModSt) (modReq : Nat) (st : ChState) (req : Nat) (d : Tab Nat) : State :=
  let lk := (List.range 4).flatMap fun m => (List.range 8).map fun p => (dk (lnkIdx m p) 1, 0)
  let pt : Tab LinkPort := (List.range 8).map fun p => (p, { LinkPort.reset with st := .disabled })
  { State.reset with
    ch := (List.range 4).map fun m => (m, { Channel.reset with st := st, req := req, ports := pt })
    dict := (lk ++ [(0x10001, 3), (0x12101, 3)] ++ d).foldl (fun (t : Tab Nat) (e : Nat × Nat) => tabSet t e.1 e.2) []
    hub := { State.reset.hub with st := m, modReq := modReq } }
theorem test_meets_Channel_requests : ∀ x ∈ [(ModSt.serving, ChState.serving, 0), (.serving, .isolated, 0), (.serving, .serving, 1), (.ready, .isolated, 4),
      (.ready, .resetting, 3)], let s := four x.1 0 x.2.1 x.2.2 []
    portUp s rqA = true ∧ writeGate s rqA (cIdx 0 0) 3 = none ∧ s.hub.jobs = [] ∧ s.hub.jnl.buffer = [] ∧ (getCh s 0).st = x.2.1 ∧ (getCh s 0).req = x.2.2 ∧
      (getCh s 0).heldReq = 0 ∧ (∀ m : Fin 4, ∀ p : Fin 8, (getPort (getCh s m) p).st = .disabled ∧ dGet s (lnkIdx m p) 1 = 0) := by decide +kernel
theorem test_meets_Module_requests : let r := four .ready 0 .isolated 0 []
    (portUp r ⟨.mgmt, 9⟩ = true ∧ writeGate r ⟨.mgmt, 9⟩ 0x0200 2 = none ∧ r.hub.modReq = 0 ∧ r.hub.jnl.isOpen = false ∧ r.hub.jnl.sealing = false ∧
      (∀ m : Fin 4, (getCh r m).st = .isolated ∧ (getCh r m).req = 0) ∧ writeGate r ⟨.mgmt, 9⟩ 0x0200 3 = none ∧ r.hub.bays = []) ∧
    (∀ v ∈ [40000, 60000, 60001, 39999], let s := four .standby 0 .isolated 0 [(dk 0x201 1, v)]
      portUp s ⟨.mgmt, 9⟩ = true ∧ writeGate s ⟨.mgmt, 9⟩ 0x0200 2 = none ∧ dGet s 0x0201 1 = v) := by decide +kernel
theorem test_meets_Module_states : (four .standby 2 .isolated 0 []).hub.modReq = 2 ∧ (four .ready 1 .isolated 0 []).hub.modReq = 1 ∧
    (four .off 0 .isolated 0 []).hub.st = .off ∧ (four .standby 0 .isolated 0 []).hub.st = .standby ∧
    (four .serving 0 .serving 0 []).hub.st = .serving := by decide +kernel
/-- Bay 0 in a state. -/
def bayS (m : ModSt) (b : Tab Bay) (f : Journal → Journal) : State :=
  let s := stR id coreX []
  { s with hub := { s.hub with st := m, time := 500, jobs := [(0, jb)], bays := b, jnl := f s.hub.jnl } }
theorem test_meets_Journal_seal : let y := { Bay.reset with st := .active }
    let s := bayS .serving [(0, y)] fun j => { j with isOpen := true, segRecs := 2 }
    s.hub.bays = [(0, y)] ∧ (getBay s 0).st = .active ∧ (getBay s 0).cmds = [] ∧ s.hub.jnl.isOpen = true ∧ s.hub.jnl.sealing = false ∧
      portUp s rqA = true ∧ writeGate s rqA 0x0400 9 = none ∧ activeBays s = [0] ∧ s.hub.events.length < 8192 := by decide +kernel
theorem test_meets_Journal_quiet : let s := bayS .ready [] id
    (s.hub.jnl.isOpen = false ∧ s.hub.jnl.sealing = false ∧ s.hub.jnl.recovering = false) ∧ ∀ m, (getBay s m).ready = false :=
  ⟨by decide +kernel, fun _ => rfl⟩
theorem test_meets_Bays : ∀ st ∈ [BaySt.refused, .identifying, .empty, .active], let s := bayS .ready [(1, { Bay.reset with st := st })] id
    s.hub.bays = [(1, getBay s 1)] ∧ s.hub.jnl.held = [] ∧ s.hub.jnl.buffer = [] ∧ s.hub.jnl.gaps = [] ∧ (getBay s 1).st = st ∧ (getBay s 1).cmds = [] ∧ (getBay s 1).reads = [] ∧ s.hub.jnl.pend = [] ∧ writeGate s rqA (0x0401 + 1) 5 = none ∧
      (st ≠ .active → activeBays s = []) := by decide +kernel
theorem test_meets_Bays_quiet (st : BaySt) (m : Nat) (h : st ≠ .active) : (getBay (bayS .ready [(1, { Bay.reset with st := st })] id) m).ready = false := by
  show (tabGet [(1, { Bay.reset with st := st })] Bay.reset m).ready = false
  simp only [tabGet, tabFind, List.lookup]
  cases st <;> first | exact absurd rfl h | (cases m == 1 <;> rfl)
/-- What waits for bay 0 to accept it. -/
def rec0 : JRec := ⟨5, [1, 2, 3], some (0, 0, 3), [1]⟩
theorem test_meets_Bays_answers : ∀ code ∈ [0x10, 0x01, 0x02, 0x03, 0x11, 0x20], let c : BayCmd := ⟨1, code, 0, [1, 2, 3], 0⟩
    let s := bayS .serving [(0, { Bay.reset with st := .identifying, cmds := [c], reads := if code = 0x20 then [(1, rqA)] else [] })] id
    (getBay s 0).cmds = [c] ∧ c.tag = (1 : BitVec 16).toNat ∧ c.code = code ∧ (getBay s 0).queued = [] ∧ (getBay s 0).crcAt = [] ∧ s.hub.jnl.pend = [] ∧
      s.hub.jnl.isOpen = false ∧ s.hub.jnl.sealing = false ∧ s.hub.jnl.recovering = false ∧
      s.hub.bays = [(0, getBay s 0)] ∧ (code = 0x20 → (getBay s 0).reads = [(c.tag, rqA)]) ∧ (zeros 128).length = 128 ∧ fld (zeros 128) 32 1 = 0 ∧
      (zeros 4096).length = 4096 ∧ (zeros 4095).length < 4096 ∧ fld (List.replicate 128 (1 : Byte)) 32 1 ≠ 0 := by
  decide +kernel
theorem test_meets_Bays_appends : let c : BayCmd := ⟨1, 0x10, 0, [1, 2, 3], 0⟩
    let d : BayCmd := ⟨2, 0x11, 0, [], 0⟩
    let s := bayS .serving [(0, { Bay.reset with st := .active, cmds := [c], queued := [d], crcAt := List.replicate 15 0 })] fun j => { j with pend := [rec0] }
    (getBay s 0).queued = d :: [] ∧ s.hub.jnl.pend = [rec0] ∧ rec0.waits = [65536 * 0 + c.tag] ∧ (getBay s 0).crcAt.length = 15 ∧
      s.hub.time ≤ (getBay s 0).crcAt.getD 14 0 + 1000000000 ∧ (14 : Nat) < 15 ∧
      ({ Bay.reset with crcAt := List.replicate 15 0 } : Bay).crcAt.getD 14 0 + 1000000000 < 1000000001 := by decide +kernel
theorem test_meets_Bays_room : let s := stR id coreX [(dk 0x400 7, 100000)]
    400 < dGet s 0x0400 7 ∧ ({ Bay.reset with cap := 2 ^ 43 } : Bay).written + (2 * dGet s 0x0400 7 + 1048576) ≤ 2 ^ 43 := by decide +kernel

/-! ### Encodings and memories -/

theorem test_meets_SlotWords : (Instr.setc 5 3 0 0xFFFFFF).wf = true ∧ encodeSlot (.setc 5 3 0 0xFFFFFF) = some (0, 0x2CFFFFFF) ∧ (0 : Nat) < 7 ∧
    0x2CFFFFFF < 2 ^ slotWidth 0 ∧ decodeSlot 5 0 0x2CFFFFFF = .ok (some (.setc 5 3 0 0xFFFFFF)) := by decide +kernel
theorem test_meets_MemoriesKeepTheirForm : detects s0 5 = false ∧ Mem.wf (getCore s0 5).dmem = true ∧ Mem.wf (getCore s0 5).spad = true ∧
    Mem.wf (getCh s0 0).gddr = true ∧ canIssue s0 5 = true ∧ ea s0 5 0 + 4 ≤ 65536 ∧ ea s0 5 0 % 4 = 0 ∧
    touchesHeld (startCore s0 5) 1 (ea s0 5 0) 4 = false := by
  decide +kernel
theorem test_meets_StoresStayWithinTheirLimits : State.reset.hub.events.length ≤ 8192 := by decide +kernel
theorem test_meets_StoresStayWithinTheirLimits_logs (n : Nat) : (getCh State.reset n).brakeLog.length ≤ 64 := by
  show (0 : Nat) ≤ 64
  omega

/-! ### Single steps, with results worked out from the tables -/

/-- What general register 9 of core 5 holds after a command on the machine of core 5. -/
def r9 (i : Instr) : Option Word :=
  match exec i s0 with
  | .next t => some (gReg (getCore t 5) 9)
  | _ => none
theorem test_add_wraps : r9 (.add 5 9 4 5 0) = some 0x0000FFEC := by decide +kernel
theorem test_sub_borrows : r9 (.sub 5 9 0 2 0) = some 0xFFFFFFF9 := by decide +kernel
theorem test_mulh_is_signed : r9 (.mulh 5 9 4 1 0) = some 7 ∧ r9 (.mulhu 5 9 4 1 0) = some 0x7FFFFFF8 := by decide +kernel
theorem test_sra_fills_with_the_sign : r9 (.sra 5 9 1 2 0) = some 0xFF000000 ∧ r9 (.srl 5 9 1 2 0) = some 0x01000000 := by decide +kernel
theorem test_slt_and_sltu_differ : r9 (.slt 5 9 1 2 0) = some 1 ∧ r9 (.sltu 5 9 1 2 0) = some 0 := by decide +kernel
theorem test_sel_reads_the_old_rd : (match exec (.sel 5 2 4 5 0) s0 with | .next t => some (gReg (getCore t 5) 2) | _ => none) = some 0xFFFFFFF0 ∧
    r9 (.sel 5 9 4 5 0) = some 65532 := by decide +kernel
theorem test_clz_and_popc : r9 (.clz 5 9 2 0 0) = some 29 ∧ r9 (.clz 5 9 0 0 0) = some 32 ∧ r9 (.popc 5 9 1 0 0) = some 2 := by decide +kernel
theorem test_andi_extends_with_zeros : r9 (.andi 5 9 4 0x3FFFF) = some 0x3FFF0 ∧ r9 (.addi 5 9 2 0x3FFFF) = some 6 := by decide +kernel
theorem test_lui_shifts_by_ten : r9 (.lui 5 9 0x200001) = some 0x80000400 ∧ r9 (.li 5 9 0x200000) = some 0xFFE00000 := by decide +kernel
theorem test_lb_extends_the_sign : r9 (.lb 5 9 0 1) = some 0xFFFFFF81 ∧ r9 (.lbu 5 9 0 1) = some 0x81 ∧ r9 (.lh 5 9 0 4) = some 0xFFFF8201 ∧
    r9 (.lw 5 9 0 4) = some 0x8201 := by decide +kernel
theorem test_sh_stores_two_bytes : (match exec (.sh 5 1 0 4) s0 with | .next t => some ((getCore t 5).dmem) | _ => none) =
    some [(1, 0x81), (4, 1), (65535, 0xFF)] := by decide +kernel
theorem test_misaligned_load_halts : (match exec (.lw 5 9 0 2) s0 with | .next t => (getCore t 5).halt.map (·.reason) | _ => none) = some 0x25 := by
  decide +kernel
theorem test_bf16_one_and_a_half_narrows : toF bf16 .rne (decodeF fp32 0x3FC00000) = ⟨0x3FC0, false, false⟩ := by decide +kernel
theorem test_fp32_tie_goes_to_even : toF bf16 .rne (decodeF fp32 0x3F808000) = ⟨0x3F80, false, false⟩ ∧
    toF bf16 .rne (decodeF fp32 0x3F818000) = ⟨0x3F82, false, false⟩ := by decide +kernel
theorem test_fp32_one_plus_one : (fastAdd 0x3F800000 0x3F800000).bits = 0x40000000 := by decide +kernel
theorem test_sm3_of_abc : sm3 [0x61, 0x62, 0x63] = beBytes 32 0x66C7F0F462EEEDD9D1F2D46BDC10E4E24167C4875CF2F7A2297DA02B8F4BA8E0 := by decide +kernel
theorem test_crc32c_check_value : crc32c [0x31, 0x32, 0x33, 0x34, 0x35, 0x36, 0x37, 0x38, 0x39] = 0xE3069283 := by decide +kernel
theorem test_table_rows_have_no_bits : decodeTableWord 0 0 = none ∧ State.reset.withFetchWord 32 5 = State.reset := ⟨rfl, rfl⟩
theorem test_step_takes_the_front : (match step { s0 with pending := [.addi 5 9 2 1, .addi 5 9 9 1] } with
    | .next t => some (gReg (getCore t 5) 9, t.pending.length) | _ => none) = some (8, 1) := by decide +kernel
theorem test_idle_step_is_one_tick : (match step State.reset with | .next t => some t.hub.time | _ => none) = some 1 := by decide +kernel
theorem test_reset_identifies : dGet State.reset 0x0001 1 = objDefault 0x0001 1 ∧ State.reset.hub.st = .standby := by decide +kernel

end Sys2Proof.Tests
end

section
/-! SUPPORT. Proofs of the coachman's register forms (R40, R41, Table 2.4): each operation as the arithmetic that the table names, and the
answer of a format-R instruction. -/

namespace Sys2Proof.Machine

/-! ### Format R -/

/-- What holds of every answer may be weakened. -/
theorem Answers.imp {i : Instr} {s : State} {P Q : State → Prop} (h : Answers i s P) (hPQ : ∀ t, P t → Q t) : Answers i s Q :=
  Exists.imp (fun t ht => ⟨ht.1, hPQ t ht.2⟩) h

/-- A format-R instruction whose operation `f` has the value `v` writes `v` to rd. -/
theorem answers_coachR {s : State} {c : CoreId} {i : Instr} {rd rs1 rs2 : BitVec 4} {v : Word} (h : canIssue s c = true)
    (f : Word → Word → Word) (hi : exec i s = coachR s c rd rs1 rs2 0 f)
    (hv : f (gReg (startCore s c) rs1.toNat) (gReg (startCore s c) rs2.toNat) = v) :
    Answers i s (WritesReg s · c rd v) := by
  rw [Answers, hi, ← hv]
  exact coach_writes h rfl rd _

/-- An instruction of one source writes its operation's value to rd. -/
theorem answers_coachOne {s : State} {c : CoreId} {i : Instr} {rd rs1 : BitVec 4} (h : canIssue s c = true)
    (f : Word → Word) (hi : exec i s = coachOne s c rd rs1 0 0 f) :
    Answers i s (WritesReg s · c rd (f (gReg (startCore s c) rs1.toNat))) := by
  rw [Answers, hi]
  exact coach_writes h rfl rd _

/-- `sel` reads the old rd beside its two sources. -/
theorem answers_sel {s : State} {c : CoreId} {rd rs1 rs2 : BitVec 4} (h : canIssue s c = true) :
    Answers (.sel c rd rs1 rs2 0) s (WritesReg s · c rd
      (if gReg (startCore s c) rd.toNat ≠ 0 then gReg (startCore s c) rs1.toNat else gReg (startCore s c) rs2.toNat)) := by
  rw [ite_not]
  exact coach_writes h rfl rd fun k => if gReg k rd.toNat = 0 then gReg k rs2.toNat else gReg k rs1.toNat

/-! ### Sums, products and comparisons, wrapping modulo 2^32 -/

theorem add_eq_ofNat (a b : Word) : a + b = BitVec.ofNat 32 (a.toNat + b.toNat) := by
  rw [BitVec.ofNat_add, BitVec.ofNat_toNat, BitVec.ofNat_toNat, BitVec.setWidth_eq, BitVec.setWidth_eq]

theorem sub_eq_ofInt (a b : Word) : a - b = BitVec.ofInt 32 (a.toInt - b.toInt) := by
  rw [← BitVec.toInt_inj, BitVec.toInt_sub, BitVec.toInt_ofInt]

theorem wMul_eq_ofInt (a b : Word) : wMul a b = BitVec.ofInt 32 (a.toInt * b.toInt) := by
  rw [wMul, BitVec.ofInt_mul, BitVec.ofInt_toInt, BitVec.ofInt_toInt]

theorem wMin_eq_ofInt (a b : Word) : wMin a b = BitVec.ofInt 32 (min a.toInt b.toInt) := by
  by_cases hlt : a.toInt < b.toInt
  · rw [wMin, if_pos (BitVec.slt_iff_toInt_lt.2 hlt), min_eq_left hlt.le, BitVec.ofInt_toInt]
  · rw [wMin, if_neg (mt BitVec.slt_iff_toInt_lt.1 hlt), min_eq_right (not_lt.1 hlt), BitVec.ofInt_toInt]

theorem wMax_eq_ofInt (a b : Word) : wMax a b = BitVec.ofInt 32 (max a.toInt b.toInt) := by
  by_cases hlt : a.toInt < b.toInt
  · rw [wMax, if_pos (BitVec.slt_iff_toInt_lt.2 hlt), max_eq_right hlt.le, BitVec.ofInt_toInt]
  · rw [wMax, if_neg (mt BitVec.slt_iff_toInt_lt.1 hlt), max_eq_left (not_lt.1 hlt), BitVec.ofInt_toInt]

theorem wBool_beq (a b : Word) : wBool (a == b) = if a = b then 1 else 0 := by
  simp [wBool]

theorem wBool_bne (a b : Word) : wBool (a != b) = if a = b then 0 else 1 := by
  by_cases h : a = b <;> simp [wBool, h]

theorem wBool_slt (a b : Word) : wBool (a.slt b) = if a.toInt < b.toInt then 1 else 0 := by
  simp [wBool, BitVec.slt_iff_toInt_lt]

theorem wBool_ult (a b : Word) : wBool (a.ult b) = if a.toNat < b.toNat then 1 else 0 := by
  simp [wBool, BitVec.ult_iff_toNat_lt]

/-! ### Shifts -/

theorem shiftLeft_eq_ofNat (a : Word) (n : Nat) : a <<< n = BitVec.ofNat 32 (a.toNat * 2 ^ n) := by
  apply BitVec.eq_of_toNat_eq
  rw [BitVec.toNat_shiftLeft, BitVec.toNat_ofNat, Nat.shiftLeft_eq]

theorem ushiftRight_eq_ofNat (a : Word) (n : Nat) : a >>> n = BitVec.ofNat 32 (a.toNat / 2 ^ n) := by
  rw [← Nat.shiftRight_eq_div_pow, ← BitVec.toNat_ushiftRight, BitVec.ofNat_toNat, BitVec.setWidth_eq]

theorem sshiftRight_eq_ofInt (a : Word) (n : Nat) : a.sshiftRight n = BitVec.ofInt 32 (a.toInt / 2 ^ n) := by
  rw [BitVec.sshiftRight, Int.shiftRight_eq_div_pow]
  norm_cast

/-! ### Counts of bits -/

/-- The numbers below `m` that pass a test before the first that fails it: all of them pass, and the next one, where there is one,
fails. -/
theorem length_takeWhile_range (p : Nat → Bool) (m : Nat) :
    let n := ((List.range m).takeWhile p).length
    n ≤ m ∧ (∀ i < n, p i = true) ∧ (n < m → p n = false) := by
  have hle : (List.range m).findIdx (fun x => !p x) ≤ m := by
    simpa using List.findIdx_le_length (p := fun x => !p x) (xs := List.range m)
  have hn : ((List.range m).takeWhile p).length = (List.range m).findIdx (fun x => !p x) := by
    rw [List.takeWhile_eq_take_findIdx_not, List.length_take, List.length_range, min_eq_left hle]
  simp only [hn]
  refine ⟨hle, fun i hi => ?_, fun hlt => ?_⟩
  · simpa using List.not_of_lt_findIdx hi
  · have hw : (List.range m).findIdx (fun x => !p x) < (List.range m).length := by rwa [List.length_range]
    simpa only [List.getElem_range, Bool.not_eq_true'] using List.findIdx_getElem (w := hw)

/-- `wClz` counts the leading zeros: the word has no one among them, and a one right below. -/
theorem wClz_spec (a : Word) : ∃ n, wClz a = BitVec.ofNat 32 n ∧
    n ≤ 32 ∧ a.toNat < 2 ^ (32 - n) ∧ (n < 32 → 2 ^ (31 - n) ≤ a.toNat) := by
  obtain ⟨hle, hzero, hone⟩ := length_takeWhile_range (fun i => !a.getLsbD (31 - i)) 32
  refine ⟨_, rfl, hle, Nat.lt_pow_two_of_testBit _ fun i hi => ?_, fun hlt => Nat.ge_two_pow_of_testBit ?_⟩
  · by_cases hi' : i < 32
    · have hbit := hzero (31 - i) (by omega)
      rw [show 31 - (31 - i) = i by omega] at hbit
      simpa [BitVec.getLsbD] using hbit
    · exact BitVec.getLsbD_of_ge a i (by omega)
  · simpa [BitVec.getLsbD] using hone hlt

theorem wPopc_eq_card (a : Word) :
    wPopc a = BitVec.ofNat 32 (Finset.univ.filter fun i : Fin 32 => a.getLsbD i = true).card := by
  have hcard : (Finset.univ.filter fun i : Fin 32 => a.getLsbD i = true).card =
      ((List.finRange 32).filter fun i : Fin 32 => a.getLsbD i).length := by
    simp [Finset.card, Finset.filter, Fin.univ_def]
  rw [hcard, wPopc, ← List.map_coe_finRange_eq_range, List.filter_map, List.length_map]
  rfl

/-! ### The register forms -/

/-- Settles O4: every instruction issues as format R with its operation, whose value is the arithmetic of Table 2.4. -/
theorem coachmanRegisterForms : Obligations.CoachmanRegisterForms := by
  refine ⟨fun s c rd rs1 rs2 h => ?_, fun s c rd rs1 h => ⟨?_, ?_⟩⟩
  · exact ⟨answers_coachR h (· + ·) rfl (add_eq_ofNat _ _), answers_coachR h (· - ·) rfl (sub_eq_ofInt _ _),
      answers_coachR h wMul rfl (wMul_eq_ofInt _ _), answers_coachR h wMulh rfl rfl, answers_coachR h wMulhu rfl rfl,
      answers_coachR h wMin rfl (wMin_eq_ofInt _ _), answers_coachR h wMax rfl (wMax_eq_ofInt _ _),
      answers_coachR h (· &&& ·) rfl rfl, answers_coachR h (· ||| ·) rfl rfl, answers_coachR h (· ^^^ ·) rfl rfl,
      answers_coachR h (fun a b => a <<< shamt b) rfl (shiftLeft_eq_ofNat _ _),
      answers_coachR h (fun a b => a >>> shamt b) rfl (ushiftRight_eq_ofNat _ _),
      answers_coachR h (fun a b => a.sshiftRight (shamt b)) rfl (sshiftRight_eq_ofInt _ _),
      answers_coachR h (fun a b => wBool (a == b)) rfl (wBool_beq _ _),
      answers_coachR h (fun a b => wBool (a != b)) rfl (wBool_bne _ _),
      answers_coachR h (fun a b => wBool (a.slt b)) rfl (wBool_slt _ _),
      answers_coachR h (fun a b => wBool (a.ult b)) rfl (wBool_ult _ _), answers_sel h⟩
  · obtain ⟨n, hn, hbits⟩ := wClz_spec (gReg (startCore s c) rs1.toNat)
    exact (answers_coachOne h wClz rfl).imp fun t ht => ⟨n, hn ▸ ht, hbits⟩
  · rw [← wPopc_eq_card]
    exact answers_coachOne h wPopc rfl

end Sys2Proof.Machine
end

section
/-! SUPPORT. Proofs of the journal's frame: a record handed to the hub leaves every core of every channel as it is (R281-R299). -/

namespace Sys2Proof.Machine

/-! ### Events and counters -/

@[simp] theorem dSat_ch (s : State) (i b n : Nat) : (dSat s i b n).ch = s.ch := rfl
@[simp] theorem dAdd_ch (s : State) (i b w n : Nat) : (dAdd s i b w n).ch = s.ch := rfl

@[simp] theorem pushEvent_ch (s : State) (r : List Byte) : (pushEvent s r).ch = s.ch := by
  simp only [pushEvent]
  split <;> rfl

@[simp] theorem chEvent_ch (s : State) (n code job : Nat) (detail : List Byte) : (chEvent s n code job detail).ch = s.ch :=
  pushEvent_ch s _

/-! ### Commands to the bays and the chain -/

@[simp] theorem baySend_ch (s : State) (b : Nat) (c : BayCmd) : (baySend s b c).ch = s.ch := rfl
@[simp] theorem jnlChain_ch (s : State) (r : JBody) : (jnlChain s r).2.ch = s.ch := rfl

@[simp] theorem bayCommand_ch (s : State) (b code arg : Nat) (pay : List Byte) : (bayCommand s b code arg pay).ch = s.ch := by
  simp only [bayCommand]
  split <;> rfl

/-- What each step of a fold leaves as it is, the fold leaves as it is. -/
theorem foldl_keeps {α β γ : Type} {f : β → α → β} {p : β → γ} (h : ∀ b a, p (f b a) = p b) (l : List α) (b : β) :
    p (l.foldl f b) = p b :=
  List.foldlRecOn (motive := fun x => p x = p b) l f rfl fun x hx a _ => (h x a).trans hx

@[simp] theorem bayAppend_ch (s : State) (b : Nat) (bytes : List Byte) : (bayAppend s b bytes).2.ch = s.ch :=
  foldl_keeps (p := fun x : List Nat × State => x.2.ch) (fun _ _ => bayCommand_ch _ _ _ _ _) _ _

@[simp] theorem jnlAppend_ch (s : State) (r : JRec) : (jnlAppend s r).ch = s.ch :=
  foldl_keeps (f := fun (x : List Nat × State) b => (x.1 ++ (bayAppend x.2 b r.bytes).1, (bayAppend x.2 b r.bytes).2))
    (p := fun x => x.2.ch) (fun x b => bayAppend_ch x.2 b r.bytes) (activeBays s) ([], s)

@[simp] theorem jnlSeal_ch (s : State) : (jnlSeal s).ch = s.ch := by
  unfold jnlSeal
  split
  · rfl
  · exact (foldl_keeps (p := State.ch) (fun _ _ => bayCommand_ch _ _ _ _ _) _ _).trans (jnlAppend_ch _ _)

@[simp] theorem jnlLimit_ch (s : State) : (jnlLimit s).ch = s.ch := by
  unfold jnlLimit
  split
  · exact jnlSeal_ch s
  · rfl

/-! ### Where a record may touch a channel: its jobs, and the idle time of its memory -/

theorem getCh_congr {s t : State} (h : t.ch = s.ch) (n : Nat) : getCh t n = getCh s n := by
  rw [getCh, getCh, h]

@[simp] theorem acceptStep_cores (s : State) (r : JRec) (n : Nat) : (getCh (acceptStep s r) n).cores = (getCh s n).cores := by
  unfold acceptStep
  split
  · rfl
  · rw [getCh_updCh]
    split
    · subst_vars; rfl
    · rfl

@[simp] theorem bufTouch_cores (s : State) (pos len n : Nat) : (getCh (bufTouch s pos len) n).cores = (getCh s n).cores := by
  simp only [getCh, tabGet, bufTouch, tabFind_tabMap]
  cases tabFind s.ch n with
  | none => rfl
  | some k => simp only [Option.map_some, Option.getD_some]; split <;> rfl

@[simp] theorem bufPut_cores (s : State) (r : JBody) (n : Nat) : (getCh (bufPut s r) n).cores = (getCh s n).cores :=
  bufTouch_cores _ _ _ _

@[simp] theorem jnlDiscard_cores (s : State) (r : JBody) (cause n : Nat) :
    (getCh (jnlDiscard s r cause) n).cores = (getCh s n).cores := by
  simp only [jnlDiscard]
  split
  · exact acceptStep_cores _ _ _
  · rfl

@[simp] theorem jnlPolicy_cores (s : State) (r : JBody) (n : Nat) : (getCh (jnlPolicy s r) n).cores = (getCh s n).cores := by
  simp only [jnlPolicy]
  split
  · exact jnlDiscard_cores _ _ _ _
  · split
    · exact (acceptStep_cores _ _ _).trans (bufPut_cores _ _ _)
    · rfl
  · rfl
  · split
    · exact bufPut_cores _ _ _
    · exact jnlDiscard_cores _ _ _ _

@[simp] theorem jnlPut_cores (s : State) (r : JBody) (n : Nat) : (getCh (jnlPut s r) n).cores = (getCh s n).cores := by
  unfold jnlPut
  split
  · rw [getCh_congr (jnlAppend_ch _ _)]; rfl
  · split
    · rfl
    · exact jnlPolicy_cores _ _ _

/-- A record handed to the hub leaves every core as it is. -/
@[simp] theorem jnlHand_cores (s : State) (r : JBody) (n : Nat) : (getCh (jnlHand s r) n).cores = (getCh s n).cores := by
  rw [jnlHand, getCh_congr (jnlLimit_ch _), jnlPut_cores]

end Sys2Proof.Machine
end

section
/-! SUPPORT. Proofs of the halt (R50, R51, R53, R238): the core that a condition halts at issue keeps its status and its record through
what else the halt sets off. -/

namespace Sys2Proof.Machine

/-! ### The end of a job -/

@[simp] theorem leftChanged_ch (s : State) (ch j : Nat) : (leftChanged s ch j).ch = s.ch :=
  foldl_keeps (p := State.ch) (fun _ _ => (dSat_ch _ _ _ _).trans (chEvent_ch _ _ _ _ _)) _ _

/-- Neither the end of a job nor its record touches a core. -/
@[simp] theorem endJob_cores (s : State) (j n : Nat) : (getCh (endJob s j) n).cores = (getCh s n).cores := by
  have hleft : ((jobHere (getJob s j)).foldl (fun s ch => leftChanged s ch j) s).ch = s.ch :=
    foldl_keeps (p := State.ch) (fun _ _ => leftChanged_ch _ _ _) _ _
  rw [endJob, jnlHand_cores, getCh_congr (updJob_ch _ _ _), getCh_congr hleft]

@[simp] theorem getCore_settleJob (s : State) (j : Nat) (c : CoreId) : getCore (settleJob s j) c = getCore s c := by
  unfold settleJob
  split
  · simp only [getCore, coreOf, endJob_cores]
  · rfl

/-! ### Queues that close -/

/-- What a change of a job's cores leaves as it is in each, it leaves as it is in every core. -/
theorem updJobCores_keeps {γ : Type} {f : Nat → Core → Core} {p : Core → γ} (h : ∀ n k, p (f n k) = p k)
    (s : State) (ch j : Nat) (c : CoreId) : p (getCore (updJobCores s ch j f) c) = p (getCore s c) := by
  rw [getCore, updJobCores, getCh_updCh]
  split
  · next hch =>
    rw [getCore, hch]
    simp only [coreOf, tabGet, tabFind_tabMap]
    cases tabFind (getCh s ch).cores (inCh c) with
    | none => rfl
    | some k => simp only [Option.map_some, Option.getD_some]; split <;> simp [h]
  · rfl

/-- What the closing of its queues leaves as it is in a core, the settling of its job leaves as it is (R53). -/
theorem settleQueues_keeps {γ : Type} {p : Core → γ} (h : ∀ k, p (shutQueues k) = p k)
    (s : State) (ch j : Nat) (c : CoreId) : p (getCore (settleQueues s ch j) c) = p (getCore s c) := by
  simp only [settleQueues]
  split
  · refine updJobCores_keeps (fun n k => ?_) s ch j c
    split
    · exact h k
    · rfl
  · rfl

/-! ### The halt -/

@[simp] theorem getCore_chEvent (s : State) (n code job : Nat) (detail : List Byte) (c : CoreId) :
    getCore (chEvent s n code job detail) c = getCore s c := by
  rw [getCore, getCore, getCh_congr (chEvent_ch _ _ _ _ _)]

/-- Withdrawn brake causes are the channel's own. -/
@[simp] theorem getCore_dropCauses (s : State) (n : Nat) (cores : List Nat) (c : CoreId) :
    getCore (updCh s n fun k => dropCauses k cores) c = getCore s c := by
  rw [getCore, getCore, getCh_updCh]
  split
  · next hn => rw [hn]; rfl
  · rfl

/-- A live core that halts has halted, with its record. -/
theorem haltCore_halts {s : State} {c : CoreId} (h : coreLive (getCore s c) = true) (r : HaltRec) :
    (getCore (haltCore s c r) c).status = .halted ∧ (getCore (haltCore s c r) c).halt = some r := by
  simp only [haltCore, h, Bool.not_true, Bool.false_eq_true, if_false, getCore_settleJob]
  refine (settleQueues_keeps (p := fun k => k.status = .halted ∧ k.halt = some r) (fun _ => rfl) _ _ _ c).mpr ?_
  simp only [getCore_chEvent, getCore_dropCauses, getCore_updCore_self, and_self]

theorem coreLive_of_running {k : Core} (h : k.status = .running) : coreLive k = true := by
  rw [coreLive, h]

/-- A condition found at issue halts a running core, and its record names the row word (R51). -/
theorem haltNow_haltsAtIssue {s : State} {c : CoreId} (h : (getCore s c).status = .running) (slot reason : Nat) :
    HaltsAtIssue s (haltNow s c slot reason) c slot reason :=
  haltCore_halts (coreLive_of_running h) _

theorem issue_haltsAtIssue {s : State} {c : CoreId} {fault : Option Nat} {reason : Nat} (h : canIssue s c = true)
    (hrun : (getCore s c).status = .running) (hf : fault = some reason) (slot : Nat) (eff : State → State) :
    HaltsAtIssue s (issue s c slot fault eff) c slot reason := by
  rw [issue_some h hf]
  exact haltNow_haltsAtIssue hrun slot reason

end Sys2Proof.Machine
end

section
/-! SUPPORT. Proofs of hlt and the step row (R36, R39, R138, R226, R254). -/

namespace Sys2Proof.Machine

/-! ### hlt -/

theorem senseHolds_iff (k : Core) (gi : BitVec 4) (sense : Bool) :
    senseHolds k gi sense = true ↔ if sense then gReg k gi.toNat ≠ 0 else gReg k gi.toNat = 0 := by
  cases sense <;> simp [senseHolds]

/-- What an hlt halts with: a reason out of range its own, whatever the condition; else its reason where the condition holds. -/
theorem hltFault_eq (k : Core) (gi : BitVec 4) (sense : Bool) (reason : BitVec 8) :
    hltFault k gi sense 0 reason =
      if 0x90 ≤ reason.toNat ∧ reason.toNat ≤ 0x9F then if senseHolds k gi sense then some reason.toNat else none
      else some 0x12 := by
  by_cases hvalid : 0x90 ≤ reason.toNat ∧ reason.toNat ≤ 0x9F
  · have hin : ¬(reason.toNat < 0x90 ∨ 0x9F < reason.toNat) := by omega
    simp [hltFault, firstFault, hvalid, hin]
  · have hout : reason.toNat < 0x90 ∨ 0x9F < reason.toNat := by omega
    simp [hltFault, firstFault, hvalid, hout]

/-! ### The step row -/

/-- The loop sequencer reads and changes neither segments nor engine control registers, and of a core it changes the loops alone. -/
theorem seqLevels_frame (last : Nat) (ls : List Nat) (next : Nat) (k : Core) (segs : Tab Seg) (ecr : Tab Word) :
    ∃ pc loops, seqLevels last ls (next, k) = (pc, { k with loops := loops }) ∧
      seqLevels last ls (next, { k with segs := segs, ecr := ecr }) = (pc, { k with segs := segs, ecr := ecr, loops := loops }) := by
  induction ls generalizing next k with
  | nil => exact ⟨next, k.loops, rfl, rfl⟩
  | cons l ls ih =>
    have hloop : loopOf { k with segs := segs, ecr := ecr } l = loopOf k l := rfl
    simp only [seqLevels, hloop]
    split
    · exact ih next k
    · split
      · exact ⟨next, k.loops, rfl, rfl⟩
      · split
        · exact ⟨_, _, rfl, rfl⟩
        · exact ih next (updLoop l (fun p => { p with active := false }) k)

/-- The ring address that follows is the same under other segments and engine control registers. -/
theorem seqNext_frame (k : Core) (segs : Tab Seg) (ecr : Tab Word) :
    ∃ loops, seqNext { k with segs := segs, ecr := ecr } =
      { k with segs := segs, ecr := ecr, loops := loops, pc := (seqNext k).pc } := by
  obtain ⟨pc, loops, hk, hk'⟩ := seqLevels_frame k.pc [3, 2, 1, 0] ((k.pc + 1) % 4096) k segs ecr
  exact ⟨loops, by simp only [seqNext, hk, hk']⟩

/-- A staged segment request changes the segments and the engine control registers alone (R138). -/
theorem applyPower_frame (now : Nat) (k : Core) : { applyPower now k with segs := k.segs, ecr := k.ecr } = k := by
  simp only [applyPower]
  split
  · rfl
  · refine foldl_keeps (p := fun x : Core => { x with segs := k.segs, ecr := k.ecr }) (fun x n => ?_) _ _
    split <;> rfl

/-- A core after its step row: it holds for the next step, at the ring address that follows, with one copy more, taken of the core as it
then stands. -/
theorem stepRow_eq (now : Nat) (k : Core) : ∃ segs ecr loops pins m,
    let k' := { k with segs := segs, ecr := ecr, loops := loops, pc := (seqNext k).pc, status := .holding
                       toLaunch := some (k.step + 1), pins := pins }
    stepRow now k = { k' with snaps := k.snaps ++ [snapOf k' (k.step + 1) m] } := by
  have hpower := congrArg (fun x : Core => { x with segs := (applyPower now k).segs, ecr := (applyPower now k).ecr })
    (applyPower_frame now k)
  obtain ⟨loops, hseq⟩ := seqNext_frame k (applyPower now k).segs (applyPower now k).ecr
  rw [← hpower] at hseq
  exact ⟨_, _, loops, _, _, by simp only [stepRow]; rw [hseq]⟩

/-- STEP with its reserved field zero: the step row of its core, or the halt of one whose X queue is not empty (R36). -/
theorem exec_step_of_canIssue {s : State} {c : CoreId} (h : canIssue s c = true) :
    exec (.step c 0) s = .next
      (if (getCore s c).xq = [] then updCore s c (stepRow (getCh s (chOf c)).sched) else haltNow s c 0 0x65) :=
  congrArg Host.Outcome.next (issue_none (fault := rsvFault 0) h rfl 0 _)

/-! ### hlt and the step row in one statement -/

/-- Settles O12: an hlt issues with the condition of R39, and halts with it or does nothing; a step row with an empty X queue takes the
core to the one that `stepRow_eq` names, and else halts. -/
theorem hltAndStep : Obligations.HltAndStep := by
  refine ⟨fun s c gi sense reason h hrun => ?_, fun s c h => ⟨fun hxq => ?_, fun hxq hrun => ?_⟩⟩
  · have hfault := hltFault_eq (startCore s c) gi sense reason
    refine ⟨fun hvalid hholds => ⟨_, rfl, ?_⟩, fun hvalid hfails => ⟨_, rfl, ?_⟩, fun hinvalid => ⟨_, rfl, ?_⟩⟩
    · rw [if_pos hvalid, if_pos ((senseHolds_iff _ _ _).2 hholds)] at hfault
      exact issue_haltsAtIssue h hrun hfault 0 _
    · rw [if_pos hvalid, if_neg (mt (senseHolds_iff _ _ _).1 hfails)] at hfault
      exact issue_none h hfault 0 _
    · rw [if_neg hinvalid] at hfault
      exact issue_haltsAtIssue h hrun hfault 0 _
  · obtain ⟨segs, ecr, loops, pins, m, hrow⟩ := stepRow_eq (getCh s (chOf c)).sched (getCore s c)
    refine ⟨updCore s c (stepRow (getCh s (chOf c)).sched), ?_, onlyCore_updCore s c _, ?_⟩
    · rw [exec_step_of_canIssue h, if_pos hxq]
    · rw [getCore_updCore_self, hrow]
      exact ⟨rfl, rfl, rfl, rfl, rfl, rfl, rfl, rfl, rfl, rfl, rfl, _, rfl, rfl, rfl, rfl, rfl, rfl, rfl, rfl, rfl⟩
  · refine ⟨haltNow s c 0 0x65, ?_, haltNow_haltsAtIssue hrun 0 0x65⟩
    rw [exec_step_of_canIssue h, if_neg hxq]

end Sys2Proof.Machine
end

section
/-! SUPPORT. Proofs of the check-row store (R101): the little-endian number that the bytes of a register's words spell, the fields of an
mchk, and the residues it stores. -/

namespace Sys2Proof.Machine

/-! ### The numbers that bytes spell -/

theorem leNat_append (as bs : List Byte) : leNat (as ++ bs) = leNat as + 256 ^ as.length * leNat bs := by
  induction as with
  | nil => simp [leNat]
  | cons a as ih =>
    rw [List.cons_append, leNat, leNat, ih, List.length_cons]
    ring

theorem leNat_leBytes (n v : Nat) : leNat (leBytes n v) = v % 256 ^ n := by
  induction n generalizing v with
  | zero => simp [leBytes, leNat, Nat.mod_one]
  | succ n ih => rw [leBytes, leNat, ih, BitVec.toNat_ofNat, pow_succ' 256 n, Nat.mod_mul]

/-! ### The bytes of words -/

theorem bytesOf_nil : bytesOf [] = [] := rfl

theorem bytesOf_cons (w : Word) (ws : List Word) : bytesOf (w :: ws) = leBytes 4 w.toNat ++ bytesOf ws := rfl

/-- Four bytes of each word: cutting words off the front cuts off four times as many bytes. -/
theorem drop_bytesOf (ws : List Word) (i : Nat) : (bytesOf ws).drop (4 * i) = bytesOf (ws.drop i) := by
  induction i generalizing ws with
  | zero => rfl
  | succ i ih =>
    cases ws with
    | nil => simp [bytesOf_nil]
    | cons w ws =>
      rw [List.drop_succ_cons, ← ih, bytesOf_cons, Nat.mul_succ, Nat.add_comm, ← List.drop_drop,
        List.drop_left' (length_leBytes 4 _)]

theorem take_bytesOf (ws : List Word) (n : Nat) : (bytesOf ws).take (4 * n) = bytesOf (ws.take n) := by
  induction n generalizing ws with
  | zero => rfl
  | succ n ih =>
    cases ws with
    | nil => simp [bytesOf_nil]
    | cons w ws =>
      have hlen : 4 * (n + 1) = (leBytes 4 w.toNat).length + 4 * n := by rw [length_leBytes]; omega
      rw [List.take_succ_cons, bytesOf_cons, bytesOf_cons, hlen, List.take_length_add_append, ih]

theorem leNat_bytesOf_cons (w : Word) (ws : List Word) : leNat (bytesOf (w :: ws)) = w.toNat + leNat (bytesOf ws) * 2 ^ 32 := by
  have hpow : 256 ^ 4 = 2 ^ 32 := by norm_num
  rw [bytesOf_cons, leNat_append, leNat_leBytes, length_leBytes, hpow, Nat.mod_eq_of_lt w.isLt, Nat.mul_comm]

/-- Bytes 8i to 8i+7 of a register spell its elements 2i and 2i+1, the low one first; elements it does not have read as zero. -/
theorem fld_bytesOf_pair (ws : List Word) (i : Nat) :
    fld (bytesOf ws) (8 * i) 8 = (laneW ws (2 * i)).toNat + (laneW ws (2 * i + 1)).toNat * 2 ^ 32 := by
  have hslice : slice (bytesOf ws) (8 * i) 8 = bytesOf ((ws.drop (2 * i)).take 2) := by
    rw [slice, show 8 * i = 4 * (2 * i) by omega, drop_bytesOf, ← take_bytesOf]
  have hlane : ∀ j, laneW ws (2 * i + j) = laneW (ws.drop (2 * i)) j := fun j => by simp [laneW]
  rw [fld, hslice, hlane 1, ← Nat.add_zero (2 * i), hlane 0, Nat.add_zero]
  rcases ws.drop (2 * i) with _ | ⟨a, _ | ⟨b, r⟩⟩
  · rfl
  · simp [leNat_bytesOf_cons, bytesOf_nil, leNat, laneW]
  · simp [leNat_bytesOf_cons, bytesOf_nil, leNat, laneW]

/-! ### The residues and the fields of an mchk -/

theorem length_residuesOf (ws : List Word) : (residuesOf ws).length = 64 := by
  simp [residuesOf]

theorem getD_residuesOf (ws : List Word) {i : Nat} (hi : i < 64) :
    (residuesOf ws).getD i 0 = ((laneW ws (2 * i)).toNat + (laneW ws (2 * i + 1)).toNat * 2 ^ 32) % 2 ^ 61 % chkP := by
  rw [← fld_bytesOf_pair]
  simp [residuesOf, hi]

/-- The word of an mchk with its source register and its check slot, the reserved bits zero (Table 4.3). -/
def mchkWord (vs : BitVec 5) (n : BitVec 4) : BitVec 43 :=
  BitVec.ofNat 43 (vs.toNat * 2 ^ 38 + n.toNat * 2 ^ 34)

theorem mchkWord_toNat (vs : BitVec 5) (n : BitVec 4) : (mchkWord vs n).toNat = vs.toNat * 2 ^ 38 + n.toNat * 2 ^ 34 := by
  rw [mchkWord, BitVec.toNat_ofNat, Nat.mod_eq_of_lt (by omega)]

theorem mchkWord_source (vs : BitVec 5) (n : BitVec 4) : bits (mchkWord vs n).toNat 38 5 = vs.toNat := by
  rw [mchkWord_toNat, bits]
  omega

theorem mchkWord_slot (vs : BitVec 5) (n : BitVec 4) : bits (mchkWord vs n).toNat 34 4 = n.toNat := by
  rw [mchkWord_toNat, bits]
  omega

theorem lowZero_mchkWord (vs : BitVec 5) (n : BitVec 4) : lowZero (mchkWord vs n) 34 = none := by
  rw [lowZero, mchkWord_toNat, bits, if_pos (by omega)]

/-! ### The store -/

/-- Reads are looked at only where the hazard detector is active (R247). -/
theorem readHazards_of_not_detects {s : State} {c : CoreId} (h : detects s c = false) (slot : Nat) (srcs : List Src) :
    readHazards s c slot srcs = s := by
  simp [readHazards, h]

/-- The residues of a register stored in a check slot. -/
def setCheckSlot (n : Nat) (v : List Word) (k : Core) : Core :=
  { k with chkSt := tabSet k.chkSt n (residuesOf v) }

/-- An mchk that issues stores the residues of its source register, as it stood at the start of the cycle, in its check slot. -/
theorem exec_mchk_of_canIssue {s : State} {c : CoreId} (h : canIssue s c = true) (hd : detects s c = false) (vs : BitVec 5) (n : BitVec 4) :
    exec (.mchk c (mchkWord vs n)) s = .next (updCore s c (setCheckSlot n.toNat (vReg (startCore s c) vs.toNat))) := by
  have hexec : exec (.mchk c (mchkWord vs n)) s = execMchk c (mchkWord vs n) s := rfl
  rw [hexec, execMchk, issue_none h (lowZero_mchkWord vs n), readHazards_of_not_detects hd, mchkWord_source, mchkWord_slot]
  rfl

/-- Settles O18: the core that `exec_mchk_of_canIssue` answers differs in one entry of its check slots, whose residues are those of
`getD_residuesOf`. -/
theorem checkRowStore : Obligations.CheckRowStore := by
  intro s c vs n h hd
  refine ⟨_, exec_mchk_of_canIssue h hd vs n, onlyCore_updCore s c _, ?_⟩
  rw [getCore_updCore_self]
  refine ⟨rfl, fun m hm => ?_, residuesOf (vReg (startCore s c) vs.toNat), ?_, length_residuesOf _,
    fun _ i hi => getD_residuesOf _ hi⟩
  · rw [setCheckSlot, tabGet_tabSet, if_neg hm]
  · rw [setCheckSlot, tabGet_tabSet, if_pos rfl]

end Sys2Proof.Machine
end
